-- ==== Sys2Proof/Word.lean ====
section
/-! DEFINITION. The word types of the part and their plainest arithmetic (spec/00 Conventions, spec/10 R203). -/

namespace Sys2Proof

/-- One byte of a telegram or of the custody array. -/
abbrev Byte := BitVec 8

/-- A 32-bit word: chain values, part codes, recipient codes (R122, R172, R212). -/
abbrev Word32 := BitVec 32

/-- A consignment id, unsigned 40 bits (R68, R203). -/
abbrev ConsId := BitVec 40

/-- The greatest 16-bit count. -/
abbrev max16 : Nat := 65535

/-- The greatest 32-bit count, and the greatest part-seconds value (R185). -/
abbrev max32 : Nat := 4294967295

/-- Exact addition that saturates at `cap`. -/
def satAdd (cap a b : Nat) : Nat := min cap (a + b)

end Sys2Proof
end

