-- ==== Sys2Proof/Config.lean ====
section
/-! DEFINITION. What is fixed at manufacture, and the free values: constants with no body, of which nothing can be proved. -/

namespace Sys2Proof.Config

/-- The design revision number, fixed at manufacture (R175). The range 1..255 is read through `designRevision`. -/
opaque designRevisionRaw : Nat

/-- The design revision number 1..255 (R175). -/
def designRevision : Nat := designRevisionRaw % 255 + 1

/-- The die number, 48 bits, fixed at manufacture (R175). -/
opaque dieNumber : BitVec 48

/-- A free byte: what the array holds at an address after a cut-off or failed operation (R129, R135, R195).
The first argument counts the free values drawn so far, the second is the array address.
DESIGN CHOICE, log entry 1. -/
opaque remnantByte : Nat → Nat → Byte

/-- A free number, from which the milliseconds gone since a PAUSE are taken within the bounds that the seconds give (R180, R181).
The argument counts the free values. DESIGN CHOICE, log entry 1. -/
opaque pauseElapsed : Nat → Nat

end Sys2Proof.Config
end

