-- ==== Sys2Proof/Syntax.lean ====
section
/-! DEFINITION. The commands of the part: one constructor for each row of spec/opcode_table.json, with the fields
that the row's telegram body (R202, R204) or event carries. Body fields stand as received; the rule that owns a
field checks it. -/

namespace Sys2Proof

/-- The provenance of a declaration entry (R77, R204): three values kept as received. -/
structure Provenance where
  partCode : Word32
  recordSeq : Word32
  chain : Word32
  deriving DecidableEq, Repr

/-- The DECLARE entry of body bytes 2 to 31 (R204), as received. Temperatures are signed 16-bit. -/
structure DeclEntry where
  zone : Byte
  id : ConsId
  profile : Byte
  quantity : BitVec 16
  dose : Word32
  peak : BitVec 16
  temp : BitVec 16
  melted : Bool
  provenance : Option Provenance
  deriving DecidableEq, Repr

/-- How a LOT_QUERY names its lot (R90, R204). -/
inductive LotSelect where
  /-- By consignment id. -/
  | byId (id : ConsId)
  /-- By zone and position, 1 being the oldest of the zone's list. -/
  | byPosition (zone position : Byte)
  deriving DecidableEq, Repr

/-- The commands, one constructor for each row of the table. -/
inductive Instr where
  /-- A SAMPLE telegram from the field address `src` (R11, R12). -/
  | sample (src seq : Byte) (raw : BitVec 16) (status : Byte)
  /-- A DOOR telegram (R13, R14). -/
  | door (src state age : Byte)
  /-- A UNIT telegram (R15). -/
  | unit (src defrost state : Byte)
  /-- An IDLE telegram (R9). -/
  | idle (src : Byte)
  /-- A field telegram of any other kind, length or encoding (R9). -/
  | misfit (src kind : Byte) (body : List Byte)
  /-- A field telegram from an address that is not enrolled (R10). -/
  | stranger (src kind : Byte) (body : List Byte)
  /-- A field telegram that fails R1's conditions of link CRC or destination (R1). -/
  | fieldTelegramDropped
  /-- The answer window of the open poll exchange closes (R1). -/
  | answerWindowClose
  /-- A scanner's HOLD telegram (R99). -/
  | hold (src : Byte) (id : ConsId)
  /-- A scanner's RELEASE telegram (R101). -/
  | release (src : Byte) (id : ConsId)
  /-- A scanner's COMMIT telegram (R104, R105). -/
  | commit (src : Byte) (id : ConsId) (recipient : Word32) (outcome reason : Byte)
  /-- The sweep timer expires (R2). -/
  | sweepTimerExpiry
  /-- A SCAN_ANSWER has been sent (R18). -/
  | scanAnswerSent
  /-- The pacing expiry of a zone is reached (R40). -/
  | pacingExpiry (zone : Nat)
  /-- The head item is applied to the lot under the cursor (R47). -/
  | itemApplication
  /-- The closing of the lot of a token (R109). -/
  | closingEvent (token : Nat)
  /-- The expiry time of a token is reached (R102). -/
  | holdExpiry (token : Nat)
  /-- SET (R173). -/
  | set (tag setting : Byte) (value : Word32)
  /-- GET (R174). -/
  | get (tag setting : Byte)
  /-- IDENTIFY (R175). -/
  | identify (tag : Byte)
  /-- STATUS (R176). -/
  | status (tag section_ part : Byte)
  /-- PAUSE (R180). -/
  | pause (tag : Byte) (duration : BitVec 16)
  /-- The pause timer expires (R180). -/
  | pauseExpiry
  /-- RESTART, with the form byte received (R182); well-formed with form 1, or with a form that is neither. -/
  | restartWarm (tag form : Byte)
  /-- RESTART, with the form byte received (R182); well-formed with form 2. -/
  | restartField (tag form : Byte)
  /-- LOAD_NODE (R6). -/
  | loadNode (tag address enrolled role zone offset forward : Byte)
  /-- LOAD_ZONE (R24). -/
  | loadZone (tag zone service : Byte) (limit delay : BitVec 16)
  /-- LOAD_PROFILE (R73). -/
  | loadProfile (tag profile : Byte) (lower upper : BitVec 16) (weight : Byte) (discount meltHold claimDose : BitVec 16)
  /-- One part of a DECLARE (R75). -/
  | declare (tag part count : Byte) (entry : DeclEntry)
  /-- MOVE (R81). -/
  | move (tag : Byte) (id : ConsId) (dest : Byte)
  /-- The move event of a MOVING lot (R84). -/
  | moveEvent (entry : Nat)
  /-- LOT_QUERY (R90). -/
  | lotQuery (tag : Byte) (sel : LotSelect) (section_ : Byte)
  /-- FETCH (R137). -/
  | fetch (tag : Byte) (seq : Word32)
  /-- RAISE naming a consignment id (R153). -/
  | raiseById (tag : Byte) (id : ConsId)
  /-- RAISE naming a record (R154). -/
  | raiseByRecord (tag : Byte) (seq : Word32)
  /-- CLAIM_READ; claim number 0 means oldest new (R157). -/
  | claimRead (tag : Byte) (number : BitVec 16) (take section_ : Byte)
  /-- VERDICT (R159). -/
  | verdict (tag : Byte) (number : BitVec 16) (verdict : Byte)
  /-- A trunk telegram whose header is not readable (R167). -/
  | inboundTelegramDropped
  /-- A readable trunk telegram of a kind that is no request (R168). -/
  | badKind (tag kind : Byte)
  /-- A request whose length fits no form (R168). -/
  | badLength (tag kind : Byte)
  /-- The transmitter finishes a telegram (R179). -/
  | telegramSent
  /-- The flush timer of the fill page expires (R126). -/
  | flushTimerExpiry
  /-- The program in flight completes (R128, R129). -/
  | pageProgram (pass : Bool)
  /-- The carry read in flight completes (R134). -/
  | carryRead
  /-- The CARRY copy that waits is admitted (R134). -/
  | carryCopy
  /-- The erase in flight completes (R135). -/
  | erase (pass : Bool)
  /-- The fetch read in flight completes (R137). -/
  | fetchRead
  /-- The rebuild read in flight completes (R154, R160). -/
  | rebuildRead
  /-- The locate stage of the scan ends; `fails` names the blocks whose erase or void program fails in it (R139 to R141). -/
  | locateEnd (fails : List Nat)
  /-- One second of the time base (R185). -/
  | partSecondsStep
  /-- VDD falls below its operating level (R195). -/
  | dip
  /-- VRET falls below its valid range while VDD is absent (R194). -/
  | retentionLoss
  /-- VDD rises to its operating level (R194). -/
  | vddRise
  /-- VRET falls below (`low`), or returns into, its valid range while VDD is present (R194). -/
  | retentionSupplyLow (low : Bool)
  deriving DecidableEq, Repr

end Sys2Proof
end

