-- ==== Sys2Proof/Machine/State.lean ====
section
/-! DEFINITION. The state of the part, block by block, as plain data; the machine right after a cold start; the
reasons a step can stop. -/

namespace Sys2Proof.Machine

/-! ## Sweep coordinator (spec/01) -/

/-- The role of an enrolled node (R5). -/
inductive Role where
  | probe | door | unit | scanner
  deriving DecidableEq, Repr

/-- The liveness of a field address (R5, R8). -/
inductive Liveness where
  | unknown | present | silent
  deriving DecidableEq, Repr

/-- The state of a door as its mailbox holds it (R13). -/
inductive DoorState where
  | unknown | opened | closed
  deriving DecidableEq, Repr

/-- The fault state of a unit controller (R15). -/
inductive FaultState where
  | unknown | ok | fault
  deriving DecidableEq, Repr

/-- A defrost report with its report time: START when `start`, else END (R15). -/
structure DefrostReport where
  start : Bool
  time : Nat
  deriving DecidableEq, Repr

/-- The mailbox of a probe (R11). -/
structure ProbeBox where
  value : Option Int
  lastSeq : Option Nat
  fresh : Bool
  fault : Bool
  stale : Bool
  lost : Nat
  deriving DecidableEq, Repr

/-- The mailbox of a door contact (R13). -/
structure DoorBox where
  state : DoorState
  changeTime : Option Nat
  changed : Bool
  deriving DecidableEq, Repr

/-- The mailbox of a unit controller (R15). -/
structure UnitBox where
  fault : FaultState
  report : Option DefrostReport
  deriving DecidableEq, Repr

/-- A node's mailbox, by role; a scanner and an address that is not enrolled have none (R5). -/
inductive Mailbox where
  | none
  | probe (b : ProbeBox)
  | door (b : DoorBox)
  | unit (b : UnitBox)
  deriving DecidableEq, Repr

/-- The empty mailboxes (R11, R13, R15). -/
def ProbeBox.empty : ProbeBox := ⟨Option.none, Option.none, false, false, false, 0⟩
def DoorBox.empty : DoorBox := ⟨.unknown, Option.none, false⟩
def UnitBox.empty : UnitBox := ⟨.unknown, Option.none⟩

/-- A node table entry that is enrolled (R5). -/
structure NodeEntry where
  role : Role
  zone : Option Nat
  offset : Int
  forward : Bool
  deriving DecidableEq, Repr

/-- The state of a lot (R68, R69). -/
inductive LotState where
  | free | resident | held | closing | moving
  deriving DecidableEq, Repr

/-- The figures of a final COMMIT answer beside the record's number (R112). -/
structure Figures where
  degreeMinutes : Nat
  claim : Option Nat
  dropped : Bool
  deriving DecidableEq, Repr

/-- The answers to scanners with their figures (R114). -/
inductive ScanAnswer where
  | granted (zone degreeMinutes : Nat) (peak : Int) (melted returned : Bool) (limit : Nat)
  | alreadyHolding (id : ConsId)
  | unknownLot
  | busy (state : LotState)
  | held (scanner : Nat)
  | noToken
  | released
  | notHeld
  | late
  | mismatch (id : ConsId)
  | badOutcome
  | storeBusy
  | stored (seq : Nat) (f : Figures)
  | notStored (seq : Nat) (f : Figures)
  deriving DecidableEq, Repr

/-- A SCAN_ANSWER: the request's consignment id and the answer (R114). -/
structure ScanReply where
  id : ConsId
  answer : ScanAnswer
  deriving DecidableEq, Repr

/-- A scanner's last commit (R97). `figures` holds from the closing what the answer is to carry (R112). -/
structure LastCommit where
  id : ConsId
  seq : Option Nat
  figures : Option Figures
  answer : Option ScanAnswer
  stored : Bool
  deriving DecidableEq, Repr

/-- A scanner record (R97). -/
structure ScannerRecord where
  token : Option Nat
  lastExpired : Option ConsId
  lastCommit : Option LastCommit
  deriving DecidableEq, Repr

/-- The empty scanner record (R7). -/
def ScannerRecord.empty : ScannerRecord := ⟨none, none, none⟩

/-- The outstanding request mark (R16), with what the answer does meanwhile (R17): the mark is set while it is
`awaited` or `ready`. DEDUCED, log entry 5. -/
inductive Outstanding where
  | clear
  | awaited
  | ready
  deriving DecidableEq, Repr

/-- A field address: its entry, and what is kept beside it (R5, R16). -/
structure Node where
  entry : Option NodeEntry
  liveness : Liveness
  miss : Nat
  box : Mailbox
  scanner : Option ScannerRecord
  outstanding : Outstanding
  deriving DecidableEq, Repr

/-- An address after a cold start (R20). -/
def Node.blank : Node := ⟨none, .unknown, 0, .none, none, .clear⟩

/-- The sweep phase (R2). -/
inductive Phase where
  | idle | sweeping
  deriving DecidableEq, Repr

/-- What the field line is doing (R1, R18). -/
inductive Line where
  | free
  | poll (address : Nat)
  | sending (address : Nat) (reply : ScanReply)
  deriving DecidableEq, Repr

/-- The sweep coordinator. `nodes` holds addresses 1..31 at places 0..30. -/
structure Coord where
  nodes : Vector Node 31
  line : Line
  answers : List (Nat × ScanReply)
  phase : Phase
  nextAddress : Nat
  lastStart : Option Nat
  timer : Option Nat
  owed : Bool
  strangers : List Nat
  linkErrors : Nat
  misfits : Nat
  strangerCount : Nat
  overruns : Nat
  discarded : Nat
  deriving DecidableEq, Repr

/-! ## Zone conditioner (spec/02) -/

/-- The state of a zone (R27). -/
inductive ZoneState where
  | unseen | watched | blind
  deriving DecidableEq, Repr

/-- A set of alarm kinds (R23, R203). -/
structure AlarmSet where
  tempHigh : Bool
  doorHeld : Bool
  zoneBlind : Bool
  unitFault : Bool
  deriving DecidableEq, Repr

/-- No alarm kind. -/
def AlarmSet.none : AlarmSet := ⟨false, false, false, false⟩

/-- The kind of a tick with the temperature or penalty it carries (R28). -/
inductive TickKind where
  | watched (temp : Int)
  | blind (temp : Int)
  | unseen (penalty : Nat)
  deriving DecidableEq, Repr

/-- A zone tick (R32). -/
structure Tick where
  zone : Nat
  time : Nat
  span : Nat
  gap : Bool
  openSeconds : Nat
  openings : Nat
  kind : TickKind
  deriving DecidableEq, Repr

/-- A pending reading: its tick, and its forced mark with the order of forcing (R33, R35). -/
structure PendingReading where
  tick : Tick
  forced : Option Nat
  deriving DecidableEq, Repr

/-- A zone record (R23). `union` and `defrost` hold the time since which they are OPEN or ON. -/
structure Zone where
  inService : Bool
  limit : Int
  delay : Nat
  inServiceTime : Nat
  state : ZoneState
  lastValid : Option Int
  latest : Option Int
  lastTick : Nat
  openDoors : List Nat
  union : Option Nat
  doorCount : Nat
  openSeconds : Nat
  openings : Nat
  defrost : Option Nat
  aboveSince : Option Nat
  alarms : AlarmSet
  raisedSince : AlarmSet
  clearedSince : AlarmSet
  noticePending : Bool
  lastNotice : Option Nat
  pacing : Option Nat
  pending : Option PendingReading
  lagged : Nat
  deriving DecidableEq, Repr

/-- A zone record after a cold start (R23). -/
def Zone.initial : Zone where
  inService := false
  limit := 960
  delay := 0
  inServiceTime := 0
  state := .unseen
  lastValid := none
  latest := none
  lastTick := 0
  openDoors := []
  union := none
  doorCount := 0
  openSeconds := 0
  openings := 0
  defrost := none
  aboveSince := none
  alarms := .none
  raisedSince := .none
  clearedSince := .none
  noticePending := false
  lastNotice := none
  pacing := none
  pending := none
  lagged := 0

/-! ## Dose engine (spec/03) -/

/-- A dose queue item: its number and the tick it was formed from (R44). -/
structure DoseItem where
  number : Nat
  tick : Tick
  deriving DecidableEq, Repr

/-- The dose engine (R44, R46, R50). `retry` is set while the stalled engine has been told of an event of R124
and has not yet retried. -/
structure Dose where
  queue : List DoseItem
  nextItem : Nat
  cursor : Option Nat
  stalled : Bool
  retry : Bool
  stallCount : Nat
  roundRobin : Nat
  deriving DecidableEq, Repr

/-- Who owns a fence: a commit, by its token, or a move, by its lot entry (R51). -/
inductive FenceOwner where
  | commit (token : Nat)
  | move (entry : Nat)
  deriving DecidableEq, Repr

/-- A commit fence or move fence (R68, R82, R106). -/
structure Fence where
  owner : FenceOwner
  entry : Nat
  zone : Nat
  item : Option Nat
  forcedWait : Bool
  deriving DecidableEq, Repr

/-! ## Lot pool (spec/04) -/

/-- The marks of a lot (R68, R203). -/
structure Marks where
  melted : Bool
  gap : Bool
  returned : Bool
  trimmed : Bool
  saturated : Bool
  deriving DecidableEq, Repr

/-- No mark. -/
def Marks.none : Marks := ⟨false, false, false, false, false⟩

/-- An open excursion run (R60). -/
structure Run where
  start : Nat
  length : Nat
  peak : Int
  deriving DecidableEq, Repr

/-- The five band counters (R61). -/
structure Bands where
  b1 : Nat
  b2 : Nat
  b3 : Nat
  b4 : Nat
  b5 : Nat
  deriving DecidableEq, Repr

/-- Band counters at allocation (R80). -/
def Bands.zero : Bands := ⟨0, 0, 0, 0, 0⟩

/-- What a MOVING lot holds beside its fence: destination and tag (R68, R82). -/
structure MoveField where
  dest : Nat
  tag : Byte
  deriving DecidableEq, Repr

/-- A lot entry (R68). Its number is its place in the pool; its move fence stands in `State.fences`. -/
structure Lot where
  state : LotState
  id : ConsId
  profile : Nat
  quantity : Nat
  zone : Nat
  custodyStart : Nat
  entered : Nat
  carriedDose : Nat
  dose : Nat
  seconds : Nat
  asOf : Nat
  lastApplied : Option Nat
  peak : Int
  lastTemp : Int
  meltRun : Nat
  run : Option Run
  bands : Bands
  doorOpenings : Nat
  doorSeconds : Nat
  marks : Marks
  token : Option Nat
  claim : Option Nat
  evidence : List Nat
  provenance : Option Provenance
  move : Option MoveField
  deriving DecidableEq, Repr

/-- A FREE entry: every other field is cleared (R68, R88). -/
def Lot.blank : Lot where
  state := .free
  id := 0
  profile := 0
  quantity := 0
  zone := 0
  custodyStart := 0
  entered := 0
  carriedDose := 0
  dose := 0
  seconds := 0
  asOf := 0
  lastApplied := none
  peak := 0
  lastTemp := 0
  meltRun := 0
  run := none
  bands := .zero
  doorOpenings := 0
  doorSeconds := 0
  marks := .none
  token := none
  claim := none
  evidence := []
  provenance := none
  move := none

/-- A profile (R72). -/
structure Profile where
  loaded : Bool
  lower : Int
  upper : Int
  weight : Nat
  discount : Nat
  meltHold : Nat
  claimDose : Nat
  deriving DecidableEq, Repr

/-- A profile after a cold start: not loaded, every value 0 (R72). -/
def Profile.blank : Profile := ⟨false, 0, 0, 0, 0, 0, 0⟩

/-- A declaration under assembly (R75). -/
structure Assembly where
  count : Nat
  entries : List DeclEntry
  clamped : Bool
  deriving DecidableEq, Repr

/-- The lot pool. `lists` holds the lists of zones 1..8 at places 0..7. -/
structure Pool where
  lots : Vector Lot 64
  free : List Nat
  lists : Vector (List Nat) 8
  profiles : Vector Profile 8
  assembly : Option Assembly
  deriving DecidableEq, Repr

/-! ## Hold controller (spec/05) -/

/-- What a committed token keeps (R106). -/
structure CommitField where
  recipient : Word32
  refuse : Bool
  reason : Nat
  deriving DecidableEq, Repr

/-- The fields of an IN_USE token (R96). -/
structure TokenUse where
  entry : Nat
  id : ConsId
  scanner : Nat
  taken : Nat
  expiry : Option Nat
  commit : Option CommitField
  deriving DecidableEq, Repr

/-- The hold controller: the tokens (absent means FREE) and the three counts (R96, R115). -/
structure Hold where
  tokens : Vector (Option TokenUse) 4
  grants : Nat
  expiries : Nat
  closings : Nat
  deriving DecidableEq, Repr

/-! ## Store controller (spec/06) -/

/-- A custody record (R120, R206): the header, the 35 bytes of kind fields, and the chain value. -/
structure Record where
  seq : Nat
  origin : Nat
  originChain : Word32
  kind : Nat
  carry : Bool
  unsynced : Bool
  time : Nat
  epoch : Nat
  partCode : Nat
  fields : List Byte
  chain : Word32
  deriving DecidableEq, Repr

/-- The store state with its stage (R139, R141, R130, R203). -/
inductive StoreStatus where
  | locate | rebuild | ready | degraded
  deriving DecidableEq, Repr

/-- The content of a block (R131). -/
inductive Content where
  | erased | head | history | erasing | bare
  deriving DecidableEq, Repr

/-- A block index entry (R131). -/
structure Block where
  retired : Bool
  content : Content
  firstSeq : Option Nat
  deriving DecidableEq, Repr

/-- An open fill page (R126). `flushWanted` stays set from the timer's expiry until the page closes. -/
structure FillPage where
  target : Nat
  records : List Record
  flushExpiry : Option Nat
  flushWanted : Bool
  deriving DecidableEq, Repr

/-- A closed page, or the program page (R126, R128). Its slots beyond its records are void. -/
structure PageBuf where
  target : Nat
  records : List Record
  deriving DecidableEq, Repr

/-- A read of the array and its asker (R134, R137, R154, R160). -/
inductive ReadReq where
  | carry (seq : Nat)
  | fetch (seq : Nat) (tag : Byte)
  | page (page : Nat)
  | raise (seq : Nat) (tag : Byte)
  deriving DecidableEq, Repr

/-- The array operation in flight (R136). `void` is the void program of R142. A read carries the block that the block index
gave for it at the grant; it reads that block whatever the index says later (R136, R137). -/
inductive ArrayOp where
  | program (target : Nat)
  | void (target : Nat)
  | erase (block : Nat)
  | read (r : ReadReq) (block : Option Nat)
  deriving DecidableEq, Repr

/-- A pinned record: its number, how many lists name it, and its origin sequence (R133, R145). -/
structure Pin where
  seq : Nat
  count : Nat
  origin : Nat
  deriving DecidableEq, Repr

/-- A CARRY copy of a record of the candidate (R134, R135). -/
structure CopyEntry where
  old : Nat
  new : Nat
  stored : Bool
  deriving DecidableEq, Repr

/-- The store controller and the custody array `mem`. Pages are numbered 0..1023 through the array. -/
structure Store where
  mem : List Host.Cell
  status : StoreStatus
  queue : List Record
  fill : Option FillPage
  closed : Option PageBuf
  program : Option PageBuf
  voiding : Bool
  flushMarks : List Nat
  blocks : Vector Block 64
  headPage : Nat
  candidate : Option Nat
  copies : List CopyEntry
  carryDue : Nat
  carryBuf : Option Record
  pins : List Pin
  flight : Option ArrayOp
  reads : List ReadReq
  fetch : Option (Nat × Byte)
  nextSeq : Nat
  lastChain : Word32
  reserved : Nat
  hold : Bool
  goneFrom : Option Nat
  torn : Nat
  programs : Nat
  programFails : Nat
  erases : Nat
  eraseFails : Nat
  deriving DecidableEq, Repr

/-! ## Claim table (spec/07) -/

/-- A set of claim reasons (R144, R203). -/
structure Reasons where
  dose : Bool
  melted : Bool
  gap : Bool
  refused : Bool
  manual : Bool
  deriving DecidableEq, Repr

/-- An entry of an evidence list or record list: current number and origin sequence (R145).
During the mapping pass a current number of 0 means that no record has been found yet (R162). -/
structure Named where
  current : Nat
  origin : Nat
  deriving DecidableEq, Repr

/-- A claim entry (R144). -/
structure Claim where
  number : Nat
  seen : Bool
  reasons : Reasons
  id : ConsId
  evidence : List Named
  records : List Named
  opened : Nat
  openedEpoch : Nat
  openedUnsynced : Bool
  deriving DecidableEq, Repr

/-- Where the rebuild stands (R160 to R162): the pages read in the pass. -/
inductive Rebuild where
  | no
  | waiting
  | claimPass (read : Nat)
  | mappingPass (read : Nat)
  deriving DecidableEq, Repr

/-- The claim table. `notes` are the claim records noted in the claim pass, `highest` the highest claim number. -/
structure ClaimTable where
  claims : List Claim
  nextNumber : Nat
  dropped : Nat
  rebuild : Rebuild
  notes : List Record
  highest : Nat
  raise : Option (Nat × Byte)
  deriving DecidableEq, Repr

/-! ## Trunk controller (spec/08) -/

/-- The answer codes (R208). -/
inductive Code where
  | ok | clamped | partTaken | granted | released | stored | notStored
  | badKind | badLength | badSetting | badValue | badAddress | badRole | badZone | badProfile | badPart | badOrder
  | badSection | badIndex | badVerdict | badRecord | badOutcome
  | unknownLot | duplicate | noRoom | zoneFull | notEmpty | busy | held | storeBusy | notReady | notFound
  | claimsFull | alreadyOpen | notOpen | noneNew | alreadyHolding | noToken | notHeld | late | mismatch
  deriving DecidableEq, Repr

/-- One field of an ANSWER body (R203, R205): an unsigned number of `width` bytes, a temperature (absent encoded as
-32768), or one bit of the flags byte. -/
inductive Val where
  | num (width value : Nat)
  | temp (t : Option Int)
  | flag (b : Bool)
  deriving DecidableEq, Repr

/-- The mark of a RECORD telegram (R177, R201). -/
inductive RecordMark where
  | stored | notStored | queued
  deriving DecidableEq, Repr

/-- The fields of an ALARM (R41). -/
structure AlarmBody where
  zone : Nat
  time : Nat
  epoch : Nat
  unsynced : Bool
  defrost : Bool
  alarms : AlarmSet
  raised : AlarmSet
  cleared : AlarmSet
  state : ZoneState
  latest : Option Int
  silent : List Nat
  deriving DecidableEq, Repr

/-- The kind of a CLAIM_NOTICE (R152). -/
inductive NoticeKind where
  | opened | added | dropped
  deriving DecidableEq, Repr

/-- The fields of a CLAIM_NOTICE (R152). -/
structure NoticeBody where
  kind : NoticeKind
  claim : Option Nat
  id : ConsId
  reasons : Reasons
  added : Reasons
  handover : Nat
  claimRecord : Option Nat
  evidence : Nat
  time : Nat
  epoch : Nat
  unsynced : Bool
  deriving DecidableEq, Repr

/-- An entry of the outbound queue (R177). -/
inductive Entry where
  | answer (tag kind : Byte) (code : Code) (vals : List Val)
  | fetchAnswer (tag : Byte) (mark : RecordMark) (record : Record)
  | alarm (body : AlarmBody)
  | claimNotice (body : NoticeBody)
  | record (mark : RecordMark) (record : Record)
  | fieldCopy (address : Nat) (kind : Byte) (time : Nat) (body : List Byte)
  deriving DecidableEq, Repr

/-- A telegram on the trunk line (R199): tag, kind, qualifier and body. -/
structure Telegram where
  tag : Byte
  kind : Nat
  qualifier : Nat
  body : List Byte
  deriving DecidableEq, Repr

/-- The settings (R172). -/
structure Settings where
  roadPeriod : Nat
  parkedPeriod : Nat
  missLimit : Nat
  blindPenalty : Nat
  holdLimit : Nat
  doorHeldLimit : Nat
  pacingInterval : Nat
  defrostAllowance : Nat
  wakeHold : Nat
  flushDelay : Nat
  wakeDoor : Bool
  wakeScan : Bool
  wakeAlarm : Bool
  ignition : Bool
  depot : Bool
  partCode : Nat
  epoch : Nat
  deriving DecidableEq, Repr

/-- The defaults of R172. -/
def Settings.default : Settings where
  roadPeriod := 5
  parkedPeriod := 60
  missLimit := 3
  blindPenalty := 32
  holdLimit := 120
  doorHeldLimit := 180
  pacingInterval := 60
  defrostAllowance := 1200
  wakeHold := 300
  flushDelay := 10
  wakeDoor := true
  wakeScan := true
  wakeAlarm := true
  ignition := false
  depot := false
  partCode := 0
  epoch := 0

/-- A running pause timer (R180): the duration that the PAUSE gave in milliseconds and the part-seconds value at which it was taken.
`shown` is the model's own: the milliseconds gone that a STATUS has shown, behind which no later one goes. DESIGN CHOICE, log
entry 1. -/
structure Pause where
  duration : Nat
  taken : Nat
  shown : Nat
  deriving DecidableEq, Repr

/-- The trunk controller. `sending` is the telegram on the line and the rest of its group; none is a free transmitter.
`pause` is the running pause timer (R180). `receiving` says that a frame is being received of which no
command waits as yet (R166, R183): no row of the table begins a frame, so it is set from outside, as the queue of commands is.
DESIGN CHOICE, log entry 45. -/
structure Trunk where
  settings : Settings
  unsynced : Bool
  queue : List Entry
  sending : List Telegram
  pause : Option Pause
  receiving : Bool
  inboundDrops : Nat
  badKinds : Nat
  badLengths : Nat
  bulkDrops : Nat
  urgentDrops : Nat
  evictions : Nat
  recordDrops : Nat
  deriving DecidableEq, Repr

/-! ## Time and mode controller (spec/09) -/

/-- The mode (R189). -/
inductive Mode where
  | road | parked
  deriving DecidableEq, Repr

/-- The sources of wake requests (R190). -/
inductive WakeSource where
  | door | scan | alarm
  deriving DecidableEq, Repr

/-- The cause of the last start (R194). -/
inductive Cause where
  | cold | restart | dip
  deriving DecidableEq, Repr

/-- The time and mode controller and the supplies. -/
structure Time where
  now : Nat
  wakeUntil : Nat
  mode : Mode
  lastWake : Option (WakeSource × Nat)
  modeChanges : Nat
  cause : Cause
  warmRestarts : Nat
  retention : Bool
  vretLow : Bool
  vdd : Bool
  deriving DecidableEq, Repr

/-! ## The whole part -/

/-- The state of the part. `free` counts the free values drawn so far (the model's own field), and `pending` is the
queue of commands that wait. -/
structure State where
  coord : Coord
  zones : Vector Zone 8
  dose : Dose
  fences : List Fence
  pool : Pool
  hold : Hold
  store : Store
  claims : ClaimTable
  trunk : Trunk
  time : Time
  free : Nat
  pending : List Instr
  deriving DecidableEq, Repr

/-- The coordinator right after a cold start: the first sweep has started at part-seconds 0 and its first poll
exchange is open (R2, R4, R20, R196). -/
def Coord.initial : Coord where
  nodes := .replicate 31 .blank
  line := .poll 1
  answers := []
  phase := .sweeping
  nextAddress := 1
  lastStart := some 0
  timer := some 60
  owed := false
  strangers := []
  linkErrors := 0
  misfits := 0
  strangerCount := 0
  overruns := 0
  discarded := 0

/-- The dose engine after a cold start (R65). -/
def Dose.initial : Dose := ⟨[], 0, none, false, false, 0, 8⟩

/-- The lot pool after a cold start (R93). -/
def Pool.initial : Pool := ⟨.replicate 64 .blank, List.range 64, .replicate 8 [], .replicate 8 .blank, none⟩

/-- The hold controller after a cold start (R116). -/
def Hold.initial : Hold := ⟨.replicate 4 none, 0, 0, 0⟩

/-- The store controller after a cold start: every RAM state is lost and the store is locating (R139).
The block index, head page, next number and last chain value are written at the end of the locate stage; what they
hold before is DESIGN CHOICE, log entry 2, and so is the array `mem` of a new part. -/
def Store.initial : Store where
  mem := []
  status := .locate
  queue := []
  fill := none
  closed := none
  program := none
  voiding := false
  flushMarks := []
  blocks := .replicate 64 ⟨false, .erased, none⟩
  headPage := 0
  candidate := none
  copies := []
  carryDue := 0
  carryBuf := none
  pins := []
  flight := none
  reads := []
  fetch := none
  nextSeq := 1
  lastChain := 0xFFFFFFFF#32
  reserved := 0
  hold := false
  goneFrom := none
  torn := 0
  programs := 0
  programFails := 0
  erases := 0
  eraseFails := 0

/-- The claim table after a cold start: rebuilding (R144, R165). -/
def ClaimTable.initial : ClaimTable := ⟨[], 1, 0, .waiting, [], 0, none⟩

/-- The trunk controller after a cold start (R183). -/
def Trunk.initial : Trunk := ⟨.default, true, [], [], none, false, 0, 0, 0, 0, 0, 0, 0⟩

/-- The time and mode controller after a cold start (R196). -/
def Time.initial : Time := ⟨0, 0, .parked, none, 0, .cold, 0, true, false, true⟩

/-- The machine right after its first start, a cold start (R194, R196). -/
def State.reset : State where
  coord := .initial
  zones := .replicate 8 .initial
  dose := .initial
  fences := []
  pool := .initial
  hold := .initial
  store := .initial
  claims := .initial
  trunk := .initial
  time := .initial
  free := 0
  pending := []

/-- Why a step stops with a fault. -/
inductive Fault where
  /-- Raised by PAGE_PROGRAM and ERASE when the operation in flight names a page or block outside the array of
  64 blocks of 16 pages (R136, geometry of R175). Safe: the spec says that no such page exists. -/
  | noSuchPage
  deriving DecidableEq, Repr

/-- Why a step is refused. -/
inductive Refusal where
  /-- Raised by an arm of `exec` whose command has no meaning yet. Safe: nothing is claimed of it. -/
  | notModelled (mnemonic : String)
  deriving DecidableEq, Repr

end Sys2Proof.Machine
end

