-- ==== Sys2Proof/Machine/Tables.lean ====
section
/-! DEFINITION. Reading and writing one place of a table. Zones and field addresses are numbered from 1, entries,
tokens, profiles and blocks from 0. Outside the table a read gives the default and a write does nothing. -/

namespace Sys2Proof.Machine

/-- The value at place `i` of a table numbered from 0. -/
def tabGet {α : Type} {n : Nat} (v : Vector α n) (i : Nat) (d : α) : α := v[i]?.getD d

/-- The table with `x` at place `i`, numbered from 0. -/
def tabPut {α : Type} {n : Nat} (v : Vector α n) (i : Nat) (x : α) : Vector α n := v.setIfInBounds i x

/-- The value at place `i` of a table numbered from 1. -/
def rowGet {α : Type} {n : Nat} (v : Vector α n) (i : Nat) (d : α) : α := if i = 0 then d else tabGet v (i - 1) d

/-- The table with `x` at place `i`, numbered from 1. -/
def rowPut {α : Type} {n : Nat} (v : Vector α n) (i : Nat) (x : α) : Vector α n :=
  if i = 0 then v else tabPut v (i - 1) x

/-- The table with `f` applied at every place. -/
def tabMap {α β : Type} {n : Nat} (f : α → β) (v : Vector α n) : Vector β n :=
  ⟨⟨v.toList.map f⟩, by simp⟩

/-- The numbers `start`, `start + 1`, .. of a table of `n` places. -/
def numbersFrom : Nat → Nat → List Nat
  | _, 0 => []
  | start, n + 1 => start :: numbersFrom (start + 1) n

/-- The field addresses 1..31 in ascending order (R4). -/
def addresses : List Nat := numbersFrom 1 31

/-- The zones 1..8 in ascending order (R26). -/
def zoneNumbers : List Nat := numbersFrom 1 8

/-- Insertion of `x` into a list kept in ascending order, without repeats. -/
def insertSorted (x : Nat) : List Nat → List Nat
  | [] => [x]
  | y :: ys => if x < y then x :: y :: ys else if x = y then y :: ys else y :: insertSorted x ys

/-- The element that follows the first `x` of a list. -/
def following (x : Nat) : List Nat → Option Nat
  | [] => none
  | y :: ys => if y = x then ys.head? else following x ys

/-- The first element of a list for which `f` gives a value, with that value. -/
def firstSome {α β : Type} (f : α → Option β) : List α → Option β
  | [] => none
  | x :: xs => match f x with
    | some y => some y
    | none => firstSome f xs

end Sys2Proof.Machine
end

