-- ==== Sys2Proof/Machine/Bytes.lean ====
section
/-! DEFINITION. Byte order and bit fields: multi-byte numbers go least significant byte first, signed numbers in two's
complement (spec/10). -/

namespace Sys2Proof.Machine

/-- The `width` bytes of `n`, least significant first. -/
def leBytes : Nat → Nat → List Byte
  | 0, _ => []
  | width + 1, n => BitVec.ofNat 8 n :: leBytes width (n / 256)

/-- The number that bytes spell, least significant first. -/
def leNat : List Byte → Nat
  | [] => 0
  | b :: bs => b.toNat + 256 * leNat bs

/-- The two's complement encoding of `t` in `bits` bits. -/
def signedNat (bits : Nat) (t : Int) : Nat := (t % (2 ^ bits : Nat)).toNat

/-- The two bytes of a temperature; absent is -32768 (R203). -/
def tempBytes (t : Option Int) : List Byte := leBytes 2 (signedNat 16 (t.getD (-32768)))

/-- A yes/no value as one bit. -/
def bitOf (b : Bool) : Nat := if b then 1 else 0

/-- The number whose bit i is the i-th element of the list. -/
def bitsNat : List Bool → Nat
  | [] => 0
  | b :: bs => bitOf b + 2 * bitsNat bs

/-- Bit `i` of a number. -/
def bitAt (n i : Nat) : Bool := n / 2 ^ i % 2 == 1

/-- Bits `lo` to `lo + width - 1` of a number. -/
def field (n lo width : Nat) : Nat := n / 2 ^ lo % 2 ^ width

/-- `width` bytes of a list from offset `at_`. -/
def sliceOf (bytes : List Byte) (at_ width : Nat) : List Byte := (bytes.drop at_).take width

/-- The number at offset `at_`, `width` bytes wide. -/
def numAt (bytes : List Byte) (at_ width : Nat) : Nat := leNat (sliceOf bytes at_ width)

/-- The byte at offset `at_`. -/
def byteAt (bytes : List Byte) (at_ : Nat) : Byte := bytes.getD at_ 0

/-- A list cut or filled with zero bytes to `width`. -/
def padTo : Nat → List Byte → List Byte
  | 0, _ => []
  | width + 1, [] => 0 :: padTo width []
  | width + 1, b :: bs => b :: padTo width bs

/-- A figure written saturated into a field of `width` bytes (R207). -/
def satBytes (width n : Nat) : List Byte := leBytes width (min n (2 ^ (8 * width) - 1))

end Sys2Proof.Machine
end

