-- ==== Sys2Proof/Machine/Crc.lean ====
section
/-! DEFINITION. The two CRCs: the chain value of a record (R122) and the CRC-16 of a Coldway frame (R200). -/

namespace Sys2Proof.Machine

/-- One step of the chain CRC: right by one place, with 82F63B78 combined when the lowest bit was 1 (R122 step 3). -/
def chainStep (r : Word32) : Word32 :=
  if r &&& 1#32 = 1#32 then (r >>> 1) ^^^ 0x82F63B78#32 else r >>> 1

/-- `k` steps of the chain CRC. -/
def chainSteps : Nat → Word32 → Word32
  | 0, r => r
  | k + 1, r => chainSteps k (chainStep r)

/-- The chain CRC over bytes, from a seed (R122). -/
def chainCrc : Word32 → List Byte → Word32
  | r, [] => r
  | r, b :: bs => chainCrc (chainSteps 8 (r ^^^ b.setWidth 32)) bs

/-- One step of the CRC-16: left by one place, with 1021 combined when the top bit was 1 (R200 step 3). -/
def crc16Step (r : BitVec 16) : BitVec 16 :=
  if r &&& 0x8000#16 = 0x8000#16 then (r <<< 1) ^^^ 0x1021#16 else r <<< 1

/-- `k` steps of the CRC-16. -/
def crc16Steps : Nat → BitVec 16 → BitVec 16
  | 0, r => r
  | k + 1, r => crc16Steps k (crc16Step r)

/-- The CRC-16 register after bytes (R200). -/
def crc16From : BitVec 16 → List Byte → BitVec 16
  | r, [] => r
  | r, b :: bs => crc16From (crc16Steps 8 (r ^^^ (b.setWidth 16 <<< 8))) bs

/-- The CRC-16 of a frame's content (R200). -/
def crc16 (bytes : List Byte) : BitVec 16 := crc16From 0xFFFF#16 bytes

end Sys2Proof.Machine
end

