-- ==== Sys2Proof/Machine/Flags.lean ====
section
/-! DEFINITION. The sets of marks, reasons and alarm kinds with their bits, and the codes of enumerated values
(R203, R208). -/

namespace Sys2Proof.Machine

/-! ## Sets -/

/-- The marks as bits 0..4: MELTED, GAP, RETURNED, TRIMMED, SATURATED (R203). -/
def Marks.bits (m : Marks) : List Bool := [m.melted, m.gap, m.returned, m.trimmed, m.saturated]

/-- The marks as a number. -/
def Marks.toNat (m : Marks) : Nat := bitsNat m.bits

/-- The claim reasons as bits 0..4: DOSE, MELTED, GAP, REFUSED, MANUAL (R203). -/
def Reasons.toNat (r : Reasons) : Nat := bitsNat [r.dose, r.melted, r.gap, r.refused, r.manual]

/-- The claim reasons that a number's bits 0..4 name (R203). -/
def Reasons.ofNat (n : Nat) : Reasons := ⟨bitAt n 0, bitAt n 1, bitAt n 2, bitAt n 3, bitAt n 4⟩

/-- No reason. -/
def Reasons.none : Reasons := ⟨false, false, false, false, false⟩

/-- MANUAL alone. -/
def Reasons.manualOnly : Reasons := ⟨false, false, false, false, true⟩

/-- Both sets together. -/
def Reasons.union (a b : Reasons) : Reasons :=
  ⟨a.dose || b.dose, a.melted || b.melted, a.gap || b.gap, a.refused || b.refused, a.manual || b.manual⟩

/-- The reasons of `a` that `b` does not hold. -/
def Reasons.without (a b : Reasons) : Reasons :=
  ⟨a.dose && !b.dose, a.melted && !b.melted, a.gap && !b.gap, a.refused && !b.refused, a.manual && !b.manual⟩

/-- Does the set hold a reason? -/
def Reasons.any (r : Reasons) : Bool := r.dose || r.melted || r.gap || r.refused || r.manual

/-- The alarm kinds as bits 0..3: TEMP_HIGH, DOOR_HELD, ZONE_BLIND, UNIT_FAULT (R203). -/
def AlarmSet.toNat (a : AlarmSet) : Nat := bitsNat [a.tempHigh, a.doorHeld, a.zoneBlind, a.unitFault]

/-- Both sets together. -/
def AlarmSet.union (a b : AlarmSet) : AlarmSet :=
  ⟨a.tempHigh || b.tempHigh, a.doorHeld || b.doorHeld, a.zoneBlind || b.zoneBlind, a.unitFault || b.unitFault⟩

/-- The kinds of `a` that `b` does not hold. -/
def AlarmSet.without (a b : AlarmSet) : AlarmSet :=
  ⟨a.tempHigh && !b.tempHigh, a.doorHeld && !b.doorHeld, a.zoneBlind && !b.zoneBlind, a.unitFault && !b.unitFault⟩

/-- Does the set hold a kind? -/
def AlarmSet.any (a : AlarmSet) : Bool := a.tempHigh || a.doorHeld || a.zoneBlind || a.unitFault

/-- How many kinds the set holds. -/
def AlarmSet.size (a : AlarmSet) : Nat := bitOf a.tempHigh + bitOf a.doorHeld + bitOf a.zoneBlind + bitOf a.unitFault

/-! ## Codes of enumerated values (R203) -/

def Role.code : Role → Nat
  | .probe => 1 | .door => 2 | .unit => 3 | .scanner => 4

def Liveness.code : Liveness → Nat
  | .unknown => 0 | .present => 1 | .silent => 2

def LotState.code : LotState → Nat
  | .free => 0 | .resident => 1 | .held => 2 | .closing => 3 | .moving => 4

def ZoneState.code : ZoneState → Nat
  | .unseen => 0 | .watched => 1 | .blind => 2

def Mode.code : Mode → Nat
  | .parked => 0 | .road => 1

def StoreStatus.code : StoreStatus → Nat
  | .locate => 0 | .rebuild => 1 | .ready => 2 | .degraded => 3

def Cause.code : Cause → Nat
  | .cold => 0 | .restart => 1 | .dip => 2

def NoticeKind.code : NoticeKind → Nat
  | .opened => 0 | .added => 1 | .dropped => 2

/-- The qualifier of a RECORD's mark (R201). -/
def RecordMark.qualifier : RecordMark → Nat
  | .stored => 1 | .notStored => 2 | .queued => 3

/-- Door and fault states have the codes of the telegrams (R202), with 2 for UNKNOWN. DEDUCED, log entry 9. -/
def DoorState.code : DoorState → Nat
  | .closed => 0 | .opened => 1 | .unknown => 2

def FaultState.code : FaultState → Nat
  | .ok => 0 | .fault => 1 | .unknown => 2

/-- The wake sources have the numbers of their bits (R203). DESIGN CHOICE, log entry 39. -/
def WakeSource.code : WakeSource → Nat
  | .door => 0 | .scan => 1 | .alarm => 2

/-- The sweep phases (R4). DESIGN CHOICE, log entry 39. -/
def Phase.code : Phase → Nat
  | .idle => 0 | .sweeping => 1

/-- The value of an answer code (R208). -/
def Code.value : Code → Nat
  | .ok => 0 | .clamped => 1 | .partTaken => 2 | .granted => 3 | .released => 4 | .stored => 5 | .notStored => 6
  | .badKind => 16 | .badLength => 17 | .badSetting => 18 | .badValue => 19 | .badAddress => 20 | .badRole => 21
  | .badZone => 22 | .badProfile => 23 | .badPart => 24 | .badOrder => 25 | .badSection => 26 | .badIndex => 27
  | .badVerdict => 28 | .badRecord => 29 | .badOutcome => 30
  | .unknownLot => 32 | .duplicate => 33 | .noRoom => 34 | .zoneFull => 35 | .notEmpty => 36 | .busy => 37
  | .held => 38 | .storeBusy => 39 | .notReady => 40 | .notFound => 41 | .claimsFull => 42 | .alreadyOpen => 43
  | .notOpen => 44 | .noneNew => 45 | .alreadyHolding => 46 | .noToken => 47 | .notHeld => 48 | .late => 49
  | .mismatch => 50

/-- The code of a scanner answer (R114, R208). -/
def ScanAnswer.code : ScanAnswer → Code
  | .granted _ _ _ _ _ _ => .granted
  | .alreadyHolding _ => .alreadyHolding
  | .unknownLot => .unknownLot
  | .busy _ => .busy
  | .held _ => .held
  | .noToken => .noToken
  | .released => .released
  | .notHeld => .notHeld
  | .late => .late
  | .mismatch _ => .mismatch
  | .badOutcome => .badOutcome
  | .storeBusy => .storeBusy
  | .stored _ _ => .stored
  | .notStored _ _ => .notStored

end Sys2Proof.Machine
end

