-- ==== Sys2Proof/Machine/Operands.lean ====
section
/-! DEFINITION. How the operands of commands are read: clamps, signed fields, addition of times, degree-minutes. -/

namespace Sys2Proof.Machine

/-- A temperature clamped to -960..960 (spec/00 Conventions). -/
def clampTemp (t : Int) : Int := max (-960) (min 960 t)

/-- A number clamped to a range. -/
def clampNat (lo hi n : Nat) : Nat := max lo (min hi n)

/-- An integer clamped to a range. -/
def clampInt (lo hi t : Int) : Int := max lo (min hi t)

/-- Is a temperature in -960..960? -/
def tempOk (t : Int) : Bool := decide (-960 ≤ t) && decide (t ≤ 960)

/-- A time computed by adding to part-seconds, limited to the greatest part-seconds value (R185). -/
def addTime (t d : Nat) : Nat := satAdd max32 t d

/-- A 16-bit count with one added, saturating. -/
def bump16 (n : Nat) : Nat := satAdd max16 n 1

/-- Degree-minutes: dose divided by 960 rounded down (R63). -/
def degreeMinutes (dose : Nat) : Nat := dose / 960

/-- Degree-minutes as answers report them, capped at 65535 (R63). -/
def reportedMinutes (dose : Nat) : Nat := min max16 (degreeMinutes dose)

/-- A yes/no byte is yes when it is not 0 (R203). -/
def yes (b : Byte) : Bool := b != 0

/-- A node role code (R203). -/
def roleOf : Nat → Option Role
  | 1 => some .probe
  | 2 => some .door
  | 3 => some .unit
  | 4 => some .scanner
  | _ => none

/-- Has a held time been reached (R185)? -/
def reached (now : Nat) : Option Nat → Bool
  | some t => decide (t ≤ now)
  | none => false

end Sys2Proof.Machine
end

