-- ==== Sys2Proof/Machine/Record.lean ====
section
/-! DEFINITION. The custody record: its 64 bytes (R206), its kind fields (R207), its chain value (R122), and how a slot
is read back (R139). -/

namespace Sys2Proof.Machine

/-- The kind fields of a record as the producing rule gives them (R207). -/
inductive RecordBody where
  | start (resumed : Bool) (torn usable retired : Nat)
  | load (id : ConsId) (zone profile : Nat) (melted : Bool) (entry quantity dose : Nat) (peak temp : Int)
      (provenance : Option Provenance)
  | move (id : ConsId) (source dest dose seconds asOf : Nat) (peak : Int) (marks : Marks) (runOpen : Bool)
  | excursion (id : ConsId) (zone profile band : Nat) (run : Run) (dose : Nat)
  | handover (id : ConsId) (entry zone profile : Nat) (refuse : Bool) (reason : Nat) (marks : Marks)
      (threshold dropped : Bool) (quantity : Nat) (recipient : Word32) (custodyStart asOf dose seconds : Nat)
      (peak lastTemp : Int) (bands : Bands) (doorOpenings doorSeconds : Nat)
  | claimOpen (number : Nat) (id : ConsId) (reasons : Reasons) (raised : Bool) (origins : List Nat)
  | claimAdd (number : Nat) (id : ConsId) (added : Reasons) (raised joined : Bool) (origin : Nat)
  | claimClose (number : Nat) (id : ConsId) (reasons : Reasons) (verdict : Nat) (openOrigin : Nat)
  deriving DecidableEq, Repr

/-- The record kind codes (R206). -/
def RecordBody.kind : RecordBody → Nat
  | .start _ _ _ _ => 1
  | .load _ _ _ _ _ _ _ _ _ _ => 2
  | .move _ _ _ _ _ _ _ _ _ => 3
  | .excursion _ _ _ _ _ _ => 4
  | .handover _ _ _ _ _ _ _ _ _ _ _ _ _ _ _ _ _ _ _ _ => 5
  | .claimOpen _ _ _ _ _ => 6
  | .claimAdd _ _ _ _ _ _ => 7
  | .claimClose _ _ _ _ _ => 8

/-- The five bytes of a consignment id (R203). -/
def idBytes (id : ConsId) : List Byte := leBytes 5 id.toNat

/-- The two bytes of a temperature in a record. -/
def recTemp (t : Int) : List Byte := leBytes 2 (signedNat 16 t)

/-- The greatest difference of evidence origins that a CLAIM_OPEN can hold (R207). -/
def maxDifference : Nat := 16777215

/-- The differences of a CLAIM_OPEN's later origins (R207): each against the last origin written; one that does not
fit is written as 0 and left out. -/
def originDifferences : Nat → List Nat → List Nat
  | _, [] => []
  | last, o :: os =>
    if maxDifference < o - last then 0 :: originDifferences last os else (o - last) :: originDifferences o os

/-- The origins of a CLAIM_OPEN (R207), 25 bytes: the first whole, then seven differences of three bytes. -/
def originBytes (origins : List Nat) : List Byte :=
  match origins with
  | [] => padTo 25 []
  | o :: os => leBytes 4 o ++ padTo 21 ((originDifferences o os).flatMap (leBytes 3))

/-- The HANDOVER lot word, 24 bits (R207). -/
def lotWord (entry zone profile : Nat) (refuse : Bool) (reason : Nat) (marks : Marks) (threshold dropped : Bool) : Nat :=
  entry % 64 + 2 ^ 6 * ((zone - 1) % 8) + 2 ^ 9 * (profile % 8) + 2 ^ 12 * bitOf refuse + 2 ^ 13 * (reason % 16)
    + 2 ^ 17 * marks.toNat + 2 ^ 22 * bitOf threshold + 2 ^ 23 * bitOf dropped

/-- The 40 bits of bytes 55 to 59 of a HANDOVER (R207). -/
def bandWord (b : Bands) (doorOpenings doorSeconds : Nat) : Nat :=
  min 15 b.b1 + 2 ^ 4 * min 15 b.b2 + 2 ^ 8 * min 15 b.b3 + 2 ^ 12 * min 15 b.b4 + 2 ^ 16 * min 15 b.b5
    + 2 ^ 20 * min 255 doorOpenings + 2 ^ 28 * min 4095 (doorSeconds / 60)

/-- The kind fields as bytes 25 on (R207), before they are filled to 35 bytes with zeros. `time` is the admission time,
from which a HANDOVER's as-of lag is taken. -/
def RecordBody.bytes (time : Nat) : RecordBody → List Byte
  | .start resumed torn usable retired => leBytes 1 (bitOf resumed) ++ satBytes 2 torn ++ leBytes 1 usable ++ leBytes 1 retired
  | .load id zone profile melted entry quantity dose peak temp provenance =>
    idBytes id ++ leBytes 1 (zone % 16 + 2 ^ 4 * (profile % 8) + 2 ^ 7 * bitOf melted)
      ++ leBytes 1 (entry % 64 + 2 ^ 6 * bitOf provenance.isSome) ++ satBytes 2 quantity ++ satBytes 4 dose
      ++ recTemp peak ++ recTemp temp
      ++ (match provenance with
          | some p => leBytes 4 p.partCode.toNat ++ leBytes 4 p.recordSeq.toNat ++ leBytes 4 p.chain.toNat
          | none => [])
  | .move id source dest dose seconds asOf peak marks runOpen =>
    idBytes id ++ leBytes 1 (source % 16 + 2 ^ 4 * (dest % 16)) ++ satBytes 4 dose ++ satBytes 2 (degreeMinutes dose)
      ++ satBytes 4 seconds ++ leBytes 4 asOf ++ recTemp peak ++ leBytes 1 (marks.toNat + 2 ^ 5 * bitOf runOpen)
  | .excursion id zone profile band run dose =>
    idBytes id ++ leBytes 1 (zone % 16 + 2 ^ 4 * (profile % 8)) ++ leBytes 1 band ++ leBytes 4 run.start
      ++ satBytes 4 run.length ++ recTemp run.peak ++ satBytes 4 dose
  | .handover id entry zone profile refuse reason marks threshold dropped quantity recipient custodyStart asOf dose seconds
      peak lastTemp bands doorOpenings doorSeconds =>
    idBytes id ++ leBytes 3 (lotWord entry zone profile refuse reason marks threshold dropped) ++ satBytes 2 quantity
      ++ leBytes 4 recipient.toNat ++ leBytes 4 custodyStart ++ satBytes 2 (time - asOf) ++ satBytes 4 dose
      ++ satBytes 3 seconds ++ leBytes 3 (signedNat 12 peak + 2 ^ 12 * signedNat 12 lastTemp)
      ++ leBytes 5 (bandWord bands doorOpenings doorSeconds)
  | .claimOpen number id reasons raised origins =>
    leBytes 2 number ++ idBytes id ++ leBytes 1 (reasons.toNat + 2 ^ 5 * bitOf raised) ++ leBytes 1 origins.length
      ++ originBytes origins
  | .claimAdd number id added raised joined origin =>
    leBytes 2 number ++ idBytes id ++ leBytes 1 (added.toNat + 2 ^ 5 * bitOf raised + 2 ^ 6 * bitOf joined) ++ leBytes 4 origin
  | .claimClose number id reasons verdict openOrigin =>
    leBytes 2 number ++ idBytes id ++ leBytes 1 (reasons.toNat + 2 ^ 5 * (verdict % 4)) ++ leBytes 4 openOrigin

/-- Bytes 0..59 of a record (R206). -/
def Record.content (r : Record) : List Byte :=
  leBytes 4 r.seq ++ leBytes 4 r.origin ++ leBytes 4 r.originChain.toNat
    ++ leBytes 1 (r.kind % 16 + 2 ^ 4 * bitOf r.carry + 2 ^ 5 * bitOf r.unsynced)
    ++ leBytes 4 r.time ++ leBytes 4 r.epoch ++ leBytes 4 r.partCode ++ padTo 35 r.fields

/-- The 64 bytes of a record (R206). -/
def Record.bytes (r : Record) : List Byte := r.content ++ leBytes 4 r.chain.toNat

/-- The record with its chain value computed from a seed (R122). -/
def Record.chained (seed : Word32) (r : Record) : Record := { r with chain := chainCrc seed r.content }

/-- What a slot holds (R120, R139). -/
inductive Slot where
  | erased
  | void
  | record (r : Record)
  | bad
  deriving DecidableEq, Repr

/-- The record that 64 bytes spell, whether well-formed or not (R206). Bits 6 and 7 of byte 12 are ignored. -/
def Record.ofBytes (b : List Byte) : Record where
  seq := numAt b 0 4
  origin := numAt b 4 4
  originChain := BitVec.ofNat 32 (numAt b 8 4)
  kind := field (numAt b 12 1) 0 4
  carry := bitAt (numAt b 12 1) 4
  unsynced := bitAt (numAt b 12 1) 5
  time := numAt b 13 4
  epoch := numAt b 17 4
  partCode := numAt b 21 4
  fields := sliceOf b 25 35
  chain := BitVec.ofNat 32 (numAt b 60 4)

/-- Is the record well-formed (R139)? -/
def Record.wellFormed (r : Record) : Bool :=
  decide (1 ≤ r.kind) && decide (r.kind ≤ 8) && r.seq != 0 && r.seq != max32
    && (if r.carry then decide (r.origin < r.seq) else r.origin == r.seq)

/-- What the 64 bytes of a slot hold (R120, R139). -/
def Slot.ofBytes (b : List Byte) : Slot :=
  if b.all (· == 0xFF#8) then .erased
  else if b.all (· == 0#8) then .void
  else if (Record.ofBytes b).wellFormed then .record (Record.ofBytes b)
  else .bad

/-- The consignment id a record names (R207); a START record names none. -/
def Record.consignment (r : Record) : Option ConsId :=
  if r.kind = 1 then none
  else if 6 ≤ r.kind then some (BitVec.ofNat 40 (numAt r.fields 2 5))
  else some (BitVec.ofNat 40 (numAt r.fields 0 5))

/-- The claim number of a claim record (R207). -/
def Record.claimNumber (r : Record) : Nat := numAt r.fields 0 2

/-- The claim reasons of a claim record (R207). -/
def Record.claimReasons (r : Record) : Reasons := Reasons.ofNat (numAt r.fields 7 1)

/-- Did the record named by a CLAIM_ADD join the evidence list (R207)? -/
def Record.claimJoined (r : Record) : Bool := bitAt (numAt r.fields 7 1) 6

/-- The origin sequence a CLAIM_ADD or CLAIM_CLOSE names (R207). -/
def Record.claimOrigin (r : Record) : Nat := numAt r.fields 8 4

/-- The origins after the first of a CLAIM_OPEN, from its differences; one written as 0 is passed over (R207). -/
def originsFrom : Nat → List Nat → List Nat
  | _, [] => []
  | last, d :: ds => if d = 0 then originsFrom last ds else (last + d) :: originsFrom (last + d) ds

/-- The evidence origins of a CLAIM_OPEN (R207). -/
def Record.openOrigins (r : Record) : List Nat :=
  let count := numAt r.fields 8 1
  let first := numAt r.fields 9 4
  if count = 0 then []
  else first :: originsFrom first (((numAt r.fields 13 3) :: (numAt r.fields 16 3) :: (numAt r.fields 19 3)
    :: (numAt r.fields 22 3) :: (numAt r.fields 25 3) :: (numAt r.fields 28 3) :: (numAt r.fields 31 3) :: []).take (count - 1))

end Sys2Proof.Machine
end

