-- ==== Sys2Proof/Machine/Telegrams.lean ====
section
/-! DEFINITION. The telegrams the part sends (R202, R203, R205) and the Coldway frame around them (R199, R200). -/

namespace Sys2Proof.Machine

/-! ## ANSWER bodies (R203, R205) -/

/-- The flags of an answer in order. -/
def flagsOf : List Val → List Bool
  | [] => []
  | .flag b :: vs => b :: flagsOf vs
  | _ :: vs => flagsOf vs

/-- Bits as bytes, eight to a byte, bit 0 first. The fuel is the number of bytes. -/
def bitBytes : Nat → List Bool → List Byte
  | 0, _ => []
  | n + 1, bs => BitVec.ofNat 8 (bitsNat (bs.take 8)) :: bitBytes n (bs.drop 8)

/-- The flags byte (R205); flags beyond eight go on in a further byte. DEDUCED, log entry 9. -/
def flagBytes (bs : List Bool) : List Byte := bitBytes ((bs.length + 7) / 8) bs

/-- The fields in order; the flags are gathered at the place of the first of them (R205). -/
def valBytes (flags : List Byte) : List Val → List Byte
  | [] => []
  | .num width n :: vs => leBytes width n ++ valBytes flags vs
  | .temp t :: vs => tempBytes t ++ valBytes flags vs
  | .flag _ :: vs => flags ++ valBytes [] vs

/-- The body of an ANSWER (R205): kind code of the request, answer code, fields. -/
def answerBody (kind : Byte) (code : Code) (vals : List Val) : List Byte :=
  kind :: BitVec.ofNat 8 code.value :: valBytes (flagBytes (flagsOf vals)) vals

/-! ## The part's own telegrams (R205) -/

/-- The body of an ALARM, 20 bytes. -/
def AlarmBody.bytes (a : AlarmBody) : List Byte :=
  leBytes 1 a.zone ++ leBytes 4 a.time ++ leBytes 4 a.epoch ++ leBytes 1 (bitOf a.unsynced + 2 * bitOf a.defrost)
    ++ leBytes 1 a.alarms.toNat ++ leBytes 1 a.raised.toNat ++ leBytes 1 a.cleared.toNat ++ leBytes 1 a.state.code
    ++ tempBytes a.latest ++ leBytes 1 a.silent.length ++ padTo 3 (a.silent.flatMap (leBytes 1))

/-- The body of a CLAIM_NOTICE, 28 bytes. -/
def NoticeBody.bytes (n : NoticeBody) : List Byte :=
  leBytes 1 n.kind.code ++ leBytes 2 (n.claim.getD 0) ++ idBytes n.id ++ leBytes 1 n.reasons.toNat
    ++ leBytes 1 n.added.toNat ++ leBytes 4 n.handover ++ leBytes 4 (n.claimRecord.getD 0) ++ leBytes 1 n.evidence
    ++ leBytes 4 n.time ++ leBytes 4 n.epoch ++ leBytes 1 (bitOf n.unsynced)

/-- The RECORD and RECORD_TAIL telegrams of a record (R177, R205). -/
def recordTelegrams (tag : Byte) (mark : RecordMark) (r : Record) : List Telegram :=
  [⟨tag, 49, mark.qualifier, r.bytes.take 48⟩, ⟨tag, 50, 0, leBytes 4 r.seq ++ r.bytes.drop 48⟩]

/-- The telegrams of an entry in the order they are sent (R177). The tag 0 of ALARM, CLAIM_NOTICE and FIELD_COPY is DESIGN
CHOICE, log entry 51. -/
def Entry.telegrams : Entry → List Telegram
  | .answer tag kind code vals => [⟨tag, 48, 0, answerBody kind code vals⟩]
  | .fetchAnswer tag mark r => ⟨tag, 48, 0, answerBody 40 .ok [.num 4 r.seq]⟩ :: recordTelegrams tag mark r
  | .alarm a => [⟨0, 51, 0, a.bytes⟩]
  | .claimNotice n => [⟨0, 52, 0, n.bytes⟩]
  | .record mark r => recordTelegrams 0 mark r
  | .fieldCopy address kind time body => [⟨0, 53, 0, leBytes 1 address ++ [kind] ++ leBytes 4 time ++ body⟩]

/-- The places an entry takes (R177). -/
def Entry.places : Entry → Nat
  | .fetchAnswer _ _ _ => 3
  | .record _ _ => 2
  | _ => 1

/-- Is the entry of the urgent class (R177)? -/
def Entry.urgent : Entry → Bool
  | .record _ _ => false
  | .fieldCopy _ _ _ _ => false
  | _ => true

/-- Is the entry an ANSWER, the FETCH answer included (R179)? -/
def Entry.isAnswer : Entry → Bool
  | .answer _ _ _ _ => true
  | .fetchAnswer _ _ _ => true
  | _ => false

/-- Is the entry a bulk RECORD (R178)? -/
def Entry.isRecord : Entry → Bool
  | .record _ _ => true
  | _ => false

/-! ## SCAN_ANSWER and POLL bodies (R202) -/

/-- Bytes 6..15 of a SCAN_ANSWER before they are filled with zeros (R202). -/
def ScanAnswer.figures : ScanAnswer → List Byte
  | .granted zone minutes peak melted returned limit =>
    leBytes 1 zone ++ leBytes 2 minutes ++ leBytes 2 (signedNat 16 peak) ++ leBytes 1 (bitOf melted + 4 * bitOf returned)
      ++ leBytes 2 limit
  | .alreadyHolding id => idBytes id
  | .mismatch id => idBytes id
  | .busy state => leBytes 1 state.code
  | .held scanner => leBytes 1 scanner
  | .stored seq f => leBytes 4 seq ++ leBytes 2 f.degreeMinutes ++ leBytes 2 (f.claim.getD 0) ++ leBytes 1 (bitOf f.dropped)
  | .notStored seq f => leBytes 4 seq ++ leBytes 2 f.degreeMinutes ++ leBytes 2 (f.claim.getD 0) ++ leBytes 1 (bitOf f.dropped)
  | _ => []

/-- The 16 bytes of a SCAN_ANSWER (R202). -/
def ScanReply.bytes (r : ScanReply) : List Byte :=
  leBytes 1 r.answer.code.value ++ idBytes r.id ++ padTo 10 r.answer.figures

/-! ## The Coldway frame (R199) -/

/-- A byte of the content as it goes on the line: C3 and C9 are escaped (R199). -/
def escapeByte (b : Byte) : List Byte := if b = 0xC3#8 ∨ b = 0xC9#8 then [0xC9#8, b ^^^ 0x40#8] else [b]

/-- The content as it goes on the line. -/
def escapeBytes (bs : List Byte) : List Byte := bs.flatMap escapeByte

/-- The content with escapes undone; none when an escape byte is followed by another byte than 83 or 89, by nothing,
or when a delimiter stands inside (R199). -/
def undoEscapes : List Byte → Option (List Byte)
  | [] => some []
  | b :: bs =>
    if b = 0xC3#8 then none
    else if b = 0xC9#8 then
      match bs with
      | [] => none
      | c :: cs => if c = 0x83#8 ∨ c = 0x89#8 then (undoEscapes cs).map ((c ^^^ 0x40#8) :: ·) else none
    else (undoEscapes bs).map (b :: ·)

/-- The content of a frame: header, body, CRC-16 low byte first (R199). -/
def frameContent (dest source kind tag : Byte) (qualifier : Nat) (body : List Byte) : List Byte :=
  let head := dest :: source :: kind :: tag :: leBytes 1 (body.length % 64 + 64 * (qualifier % 4)) ++ body
  head ++ leBytes 2 (crc16 head).toNat

/-- A frame as it goes on the line: the delimiter and the escaped content (R199). -/
def lineBytes (dest source kind tag : Byte) (qualifier : Nat) (body : List Byte) : List Byte :=
  0xC3#8 :: escapeBytes (frameContent dest source kind tag qualifier body)

/-- A trunk telegram of the part on the line: destination 32, source 0 (R166, R199). -/
def Telegram.line (t : Telegram) : List Byte := lineBytes 32 0 (BitVec.ofNat 8 t.kind) t.tag t.qualifier t.body

/-- A SCAN_ANSWER on the field line (R201, R202). -/
def ScanReply.line (address : Nat) (r : ScanReply) : List Byte := lineBytes (BitVec.ofNat 8 address) 0 9 0 0 r.bytes

/-- A POLL on the field line (R1, R201). -/
def pollLine (address : Nat) : List Byte := lineBytes (BitVec.ofNat 8 address) 0 1 0 0 []

/-- A frame that has been taken whole (R199): destination, source, kind, tag and body. -/
structure Frame where
  dest : Byte
  source : Byte
  kind : Byte
  tag : Byte
  body : List Byte
  deriving DecidableEq, Repr

/-- The frame that follows a delimiter on the line; none when it is dropped (R199): a bad escape or a delimiter inside,
a length of 49..63, bytes missing, or a wrong CRC-16. The bytes given are those up to the frame's end. -/
def frameOf (line : List Byte) : Option Frame :=
  match undoEscapes line with
  | some (dest :: source :: kind :: tag :: lenq :: rest) =>
    let len := lenq.toNat % 64
    if 48 < len then none
    else if rest.length ≠ len + 2 then none
    else
      let body := rest.take len
      let crc := rest.drop len
      if crc = leBytes 2 (crc16 (dest :: source :: kind :: tag :: lenq :: body)).toNat
      then some ⟨dest, source, kind, tag, body⟩ else none
  | _ => none

/-! ## Reception (R199) -/

/-- A frame that is being taken: what has come since its delimiter, as it stands on the line and with escapes undone, and
whether the last byte was an escape byte. -/
structure OpenFrame where
  line : List Byte
  content : List Byte
  escaped : Bool
  deriving DecidableEq, Repr

/-- The frame right after its delimiter. -/
def OpenFrame.start : OpenFrame := ⟨[], [], false⟩

/-- The frame with one more byte, which is no delimiter. -/
def OpenFrame.take (f : OpenFrame) (b : Byte) : OpenFrame :=
  if f.escaped then ⟨f.line ++ [b], f.content ++ [b ^^^ 0x40#8], false⟩
  else if b = 0xC9#8 then ⟨f.line ++ [b], f.content, true⟩
  else ⟨f.line ++ [b], f.content ++ [b], false⟩

/-- Is the content whole: a header, and after it the body and the two CRC bytes, or length bits that drop it (R199)? -/
def contentWhole (content : List Byte) : Bool :=
  match content with
  | _ :: _ :: _ :: _ :: lenq :: rest => decide (48 < lenq.toNat % 64) || decide (lenq.toNat % 64 + 2 ≤ rest.length)
  | _ => false

/-- Does the byte end the frame: with its last CRC byte, or by one of the errors that drop it (R199)? -/
def OpenFrame.endsWith (f : OpenFrame) (b : Byte) : Bool :=
  (f.escaped && decide (b ≠ 0x83#8 ∧ b ≠ 0x89#8)) || (!(f.take b).escaped && contentWhole (f.take b).content)

/-- The frames on a line, each as what follows its delimiter (R199). A frame that ends is one, dropped or not (`frameOf`), and so
is one that a delimiter cuts off. Bytes outside a frame are passed over: before any delimiter by R199, and after a frame's
end too. DEDUCED, log entry 38. What is still open at the end of the bytes is no frame yet. -/
def framesIn : Option OpenFrame → List Byte → List (List Byte)
  | _, [] => []
  | none, b :: bs => if b = 0xC3#8 then framesIn (some .start) bs else framesIn none bs
  | some f, b :: bs =>
    if b = 0xC3#8 then f.line :: framesIn (some .start) bs
    else if f.endsWith b then (f.line ++ [b]) :: framesIn none bs
    else framesIn (some (f.take b)) bs

end Sys2Proof.Machine
end

