-- ==== Sys2Proof/Machine/Ops.lean ====
section
/-! DEFINITION. The operations that several commands share: reading and writing the tables, the outbound queue and its
transmitter, the mode and the wake requests, the field line and the scanner answers. -/

namespace Sys2Proof.Machine

/-! ## The outcome of a command -/

/-- A command's effect while VDD is present; during a dip no event is taken (R195). -/
def whenOn (s : State) (f : State → State) : Host.Outcome State Fault Refusal :=
  .next (if s.time.vdd then f s else s)

/-! ## Reading and writing the tables -/

/-- The node at a field address 1..31. -/
def State.node (s : State) (a : Nat) : Node := rowGet s.coord.nodes a .blank

/-- The part with a node replaced. -/
def State.setNode (s : State) (a : Nat) (n : Node) : State :=
  { s with coord := { s.coord with nodes := rowPut s.coord.nodes a n } }

/-- The record of a zone 1..8. -/
def State.zone (s : State) (z : Nat) : Zone := rowGet s.zones z .initial

/-- The part with a zone record replaced. -/
def State.setZone (s : State) (z : Nat) (r : Zone) : State := { s with zones := rowPut s.zones z r }

/-- A lot entry 0..63. -/
def State.lot (s : State) (e : Nat) : Lot := tabGet s.pool.lots e .blank

/-- The part with a lot entry replaced. -/
def State.setLot (s : State) (e : Nat) (l : Lot) : State :=
  { s with pool := { s.pool with lots := tabPut s.pool.lots e l } }

/-- The list of a zone 1..8, oldest first (R71). -/
def State.zoneList (s : State) (z : Nat) : List Nat := rowGet s.pool.lists z []

/-- The part with a zone list replaced. -/
def State.setZoneList (s : State) (z : Nat) (l : List Nat) : State :=
  { s with pool := { s.pool with lists := rowPut s.pool.lists z l } }

/-- A profile 0..7. -/
def State.profile (s : State) (p : Nat) : Profile := tabGet s.pool.profiles p .blank

/-- A token 0..3; none is FREE. -/
def State.token (s : State) (k : Nat) : Option TokenUse := tabGet s.hold.tokens k none

/-- The part with a token replaced. -/
def State.setToken (s : State) (k : Nat) (t : Option TokenUse) : State :=
  { s with hold := { s.hold with tokens := tabPut s.hold.tokens k t } }

/-- Has the zone a record, and is it IN service (R23)? -/
def State.zoneIn (s : State) (z : Nat) : Bool := decide (1 ≤ z) && decide (z ≤ 8) && (s.zone z).inService

/-- The entry numbers 0..63. -/
def entryNumbers : List Nat := numbersFrom 0 64

/-- The entry that is not FREE and carries a consignment id (R98). -/
def State.findLot (s : State) (id : ConsId) : Option Nat :=
  entryNumbers.find? (fun e => (s.lot e).state != .free && (s.lot e).id == id)

/-- The scanner record of an address, where it has one. -/
def State.scannerRecord (s : State) (a : Nat) : Option ScannerRecord := (s.node a).scanner

/-- The part with a scanner record changed, where the address has one. -/
def State.modScanner (s : State) (a : Nat) (f : ScannerRecord → ScannerRecord) : State :=
  s.setNode a { s.node a with scanner := (s.node a).scanner.map f }

/-- The enrolled addresses of a role and zone, ascending (R5). -/
def State.nodesOf (s : State) (role : Role) (z : Nat) : List Nat :=
  addresses.filter (fun a => match (s.node a).entry with
    | some e => e.role == role && e.zone == some z
    | none => false)

/-! ## The outbound queue (R177 to R179) -/

/-- The places that entries take. -/
def placesOf (q : List Entry) : Nat := (q.map Entry.places).sum

/-- The places of the outbound queue (R177). -/
def queuePlaces : Nat := 24

/-- The places that bulk entries take (R178). -/
def bulkPlaces (q : List Entry) : Nat := placesOf (q.filter (fun e => !e.urgent))

/-- Eviction of the oldest bulk entries until at least `need` places are free of the `room` at hand (R178):
the entries that stay, how many were removed, and how many of them were RECORD entries. -/
def evictBulk (need : Nat) : Nat → List Entry → List Entry × Nat × Nat
  | _, [] => ([], 0, 0)
  | room, e :: q =>
    if need ≤ room then (e :: q, 0, 0)
    else if e.urgent then
      let r := evictBulk need room q
      (e :: r.1, r.2.1, r.2.2)
    else
      let r := evictBulk need (room + e.places) q
      (r.1, r.2.1 + 1, r.2.2 + bitOf e.isRecord)

/-- An entry is offered to the queue: it joins, bulk gives way to it, or it is dropped and counted (R178). -/
def Trunk.join (t : Trunk) (e : Entry) : Trunk :=
  let room := queuePlaces - placesOf t.queue
  if e.places ≤ room then { t with queue := t.queue ++ [e] }
  else if e.urgent then
    if e.places ≤ room + bulkPlaces t.queue then
      let r := evictBulk e.places room t.queue
      { t with
        queue := r.1 ++ [e]
        evictions := satAdd max16 t.evictions r.2.1
        recordDrops := satAdd max16 t.recordDrops r.2.2 }
    else { t with urgentDrops := bump16 t.urgentDrops }
  else
    { t with
      bulkDrops := bump16 t.bulkDrops
      recordDrops := satAdd max16 t.recordDrops (bitOf e.isRecord) }

/-- The first entry that satisfies `p`, and the queue without it. -/
def takeFirst (p : Entry → Bool) : List Entry → Option (Entry × List Entry)
  | [] => none
  | e :: q => if p e then some (e, q) else (takeFirst p q).map (fun r => (r.1, e :: r.2))

/-- The entry the transmitter chooses, and the queue without it (R179). -/
def Trunk.choice (t : Trunk) : Option (Entry × List Entry) :=
  if t.pause.isSome then takeFirst Entry.isAnswer t.queue
  else match takeFirst Entry.urgent t.queue with
    | some r => some r
    | none => takeFirst (fun _ => true) t.queue

/-- The transmitter, when it is free, begins the entry it chooses (R179). -/
def Trunk.transmit (t : Trunk) : Trunk :=
  if t.sending.isEmpty then
    match t.choice with
    | some (e, q) => { t with queue := q, sending := e.telegrams }
    | none => t
  else t

/-- An entry is offered, and a free transmitter chooses (R178, R179). -/
def State.offer (s : State) (e : Entry) : State := { s with trunk := (s.trunk.join e).transmit }

/-- The ANSWER to a request is offered (R169, R171). -/
def State.answer (s : State) (tag kind : Byte) (code : Code) (vals : List Val) : State :=
  s.offer (.answer tag kind code vals)

/-! ## The mode (R189 to R193) -/

/-- The mode that the conditions give (R189). -/
def State.modeNow (s : State) : Mode :=
  if s.trunk.settings.depot || s.trunk.settings.ignition || decide (s.time.now < s.time.wakeUntil) then .road else .parked

/-- The sweep period of a mode (R2). -/
def State.period (s : State) (m : Mode) : Nat :=
  match m with
  | .road => s.trunk.settings.roadPeriod
  | .parked => s.trunk.settings.parkedPeriod

/-- The armed expiry after a change to ROAD (R3): the earlier of the current expiry and the last sweep start time plus the
ROAD period; with no last sweep start, now. -/
def State.roadTimer (s : State) : Nat :=
  match s.coord.lastStart with
  | none => s.time.now
  | some t =>
    let early := addTime t s.trunk.settings.roadPeriod
    match s.coord.timer with
    | some cur => min cur early
    | none => early

/-- The coordinator is told of a mode change (R3). On a change to ROAD an expiry that is not ahead of now is taken at once:
while SWEEPING it makes a sweep owed and re-arms the timer; while IDLE the event that changed the mode starts the sweep
at its end (`expireAfter`). -/
def State.tellMode (s : State) (m : Mode) : Coord :=
  match m with
  | .parked => s.coord
  | .road =>
    match s.coord.phase, decide (s.roadTimer ≤ s.time.now) with
    | .sweeping, true =>
      { s.coord with owed := true, timer := some (addTime s.time.now s.trunk.settings.roadPeriod) }
    | _, _ => { s.coord with timer := some s.roadTimer }

/-- The mode is decided anew: a change is counted and told to the coordinator (R189, R3). -/
def State.decideMode (s : State) : State :=
  if s.modeNow = s.time.mode then s
  else
    { s with
      time := { s.time with mode := s.modeNow, modeChanges := bump16 s.time.modeChanges }
      coord := s.tellMode s.modeNow }

/-- Is a source among the wake sources (R190)? -/
def State.wakes (s : State) (w : WakeSource) : Bool :=
  match w with
  | .door => s.trunk.settings.wakeDoor
  | .scan => s.trunk.settings.wakeScan
  | .alarm => s.trunk.settings.wakeAlarm

/-- A wake request (R190). -/
def State.wake (s : State) (w : WakeSource) : State :=
  if s.wakes w then
    State.decideMode { s with
      time := { s.time with
        wakeUntil := max s.time.wakeUntil (addTime s.time.now s.trunk.settings.wakeHold)
        lastWake := some (w, s.time.now) } }
  else s

/-! ## The field line (R1, R17, R18) -/

/-- With no answer pending, a free line opens the poll exchange of the next address while SWEEPING (R18 cases 2, 3). -/
def Coord.openPoll (c : Coord) : Coord :=
  match c.phase with
  | .sweeping => { c with line := .poll c.nextAddress }
  | .idle => c

/-- The arbiter's grant of a free line over the pending answers (R18): the answer of a SILENT scanner is discarded and
counted, and the grant goes on. -/
def Coord.grantOver : List (Nat × ScanReply) → Coord → Coord
  | [], c => Coord.openPoll { c with answers := [] }
  | (a, r) :: rest, c =>
    let n := rowGet c.nodes a Node.blank
    if n.liveness = .silent then
      Coord.grantOver rest { c with
        discarded := bump16 c.discarded
        nodes := rowPut c.nodes a { n with outstanding := .clear } }
    else { c with answers := rest, line := .sending a r }

/-- The arbiter grants the line when it is free (R18). -/
def Coord.grant (c : Coord) : Coord :=
  match c.line with
  | .free => Coord.grantOver c.answers c
  | _ => c

/-- The arbiter's grant on the part. -/
def State.grantLine (s : State) : State := { s with coord := s.coord.grant }

/-- The hold controller returns an answer for a scanner: it joins the pending list when a request awaits it, and is
discarded and counted otherwise (R17); a free line is granted (R18). -/
def State.answerScanner (s : State) (a : Nat) (r : ScanReply) : State :=
  match (s.node a).outstanding with
  | .awaited =>
    State.grantLine
      (State.setNode { s with coord := { s.coord with answers := s.coord.answers ++ [(a, r)] } } a
        { s.node a with outstanding := .ready })
  | _ => { s with coord := { s.coord with discarded := bump16 s.coord.discarded } }

/-- A mailbox with its per-sweep marks cleared (R4). -/
def Mailbox.clearMarks : Mailbox → Mailbox
  | .probe b => .probe { b with fresh := false, fault := false, stale := false }
  | .door b => .door { b with changed := false }
  | m => m

/-- A sweep start (R2, R4); a free line is granted (R18). -/
def State.startSweep (s : State) : State :=
  State.grantLine { s with
    coord := { s.coord with
      phase := .sweeping
      nextAddress := 1
      lastStart := some s.time.now
      timer := some (addTime s.time.now (s.period s.time.mode))
      nodes := tabMap (fun n => { n with box := n.box.clearMarks }) s.coord.nodes } }

/-- At the end of an event that began in mode `before`: after a change to ROAD, a sweep timer that is not ahead of now
expires at once, and an IDLE coordinator starts a sweep (R2, R3, R185). -/
def State.expireAfter (before : Mode) (s : State) : State :=
  match before, s.time.mode, s.coord.phase with
  | .parked, .road, .idle => if reached s.time.now s.coord.timer then s.startSweep else s
  | _, _, _ => s

/-! ## Free values -/

/-- `n` free bytes from an array address on, for the draw numbered `k`. -/
def remnantBytes (k : Nat) : Nat → Nat → List Byte
  | _, 0 => []
  | a, n + 1 => Config.remnantByte k a :: remnantBytes k (a + 1) n

end Sys2Proof.Machine
end

