-- ==== Sys2Proof/Machine/DoseQueue.lean ====
section
/-! DEFINITION. The dose queue, the walk over a zone list, the queue-space arbiter and the fences
(R33 to R35, R44 to R51, R83, R107). -/

namespace Sys2Proof.Machine

/-- The places of the dose queue (R44). -/
def doseQueuePlaces : Nat := 16

/-! ## Fences -/

/-- A fence is clear when its item is absent and its forced-wait mark is clear (R83, R107). -/
def Fence.clear (f : Fence) : Bool := f.item.isNone && !f.forcedWait

/-- The fence of an owner. -/
def State.fenceOf (s : State) (o : FenceOwner) : Option Fence := s.fences.find? (fun f => f.owner == o)

/-- The fences without those of an owner. -/
def State.dropFence (s : State) (o : FenceOwner) : State :=
  { s with fences := s.fences.filter (fun f => f.owner != o) }

/-- A forced reading of a zone has been served as an item: each fence waiting on the zone takes it (R83, R107). -/
def Fence.served (z number : Nat) (f : Fence) : Fence :=
  if f.forcedWait && f.zone == z then { f with item := some number, forcedWait := false } else f

/-- An item has been applied to a lot: the fence that names it is told (R51). -/
def Fence.applied (entry number : Nat) (f : Fence) : Fence :=
  if f.entry == entry && f.item == some number then { f with item := none } else f

/-! ## Pending readings (R34, R35) -/

/-- The forcing order of a zone's pending reading, where it is forced. -/
def State.forcedOrder (s : State) (z : Nat) : Option Nat := (s.zone z).pending.bind (fun p => p.forced)

/-- The zone whose reading was forced earliest, and its order (R34 case 1). -/
def earliestForced (s : State) : List Nat → Option (Nat × Nat)
  | [] => none
  | z :: zs =>
    match s.forcedOrder z, earliestForced s zs with
    | some o, some (z', o') => if o ≤ o' then some (z, o) else some (z', o')
    | some o, none => some (z, o)
    | none, r => r

/-- The zones in round-robin order, beginning after the pointer and wrapping from 8 to 1 (R34 case 2). -/
def roundRobinOrder (pointer : Nat) : List Nat := (numbersFrom pointer 8).map (fun k => k % 8 + 1)

/-- The zone whose pending reading the queue-space arbiter serves (R34). -/
def State.servedZone (s : State) : Option Nat :=
  match earliestForced s zoneNumbers with
  | some (z, _) => some z
  | none => (roundRobinOrder s.dose.roundRobin).find? (fun z => (s.zone z).pending.isSome)

/-- A tick becomes an item at the tail of the queue; its zone's last tick time becomes the tick's time (R33, R34, R44). -/
def State.appendItem (s : State) (t : Tick) : State :=
  { s with
    dose := { s.dose with
      queue := s.dose.queue ++ [⟨s.dose.nextItem, t⟩]
      nextItem := (s.dose.nextItem + 1) % 65536 }
    zones := rowPut s.zones t.zone { s.zone t.zone with lastTick := t.time } }

/-- The queue-space arbiter serves one pending reading into a freed place, or leaves it free (R34). -/
def State.servePending (s : State) : State :=
  match s.servedZone with
  | none => s
  | some z =>
    match (s.zone z).pending with
    | none => s
    | some p =>
      let number := s.dose.nextItem
      let s := s.appendItem { p.tick with zone := z }
      let s := s.setZone z { s.zone z with pending := none }
      { s with
        dose := { s.dose with roundRobin := z }
        fences := s.fences.map (Fence.served z number) }

/-- A fence forces the pending reading of its zone; the order of forcing is kept (R35). -/
def State.forcePending (s : State) (z : Nat) : State :=
  match (s.zone z).pending with
  | none => s
  | some p =>
    match p.forced with
    | some _ => s
    | none =>
      let order := (zoneNumbers.filterMap s.forcedOrder).foldl (fun m o => max m (o + 1)) 0
      s.setZone z { s.zone z with pending := some { p with forced := some order } }

/-! ## The walk (R46 to R49) -/

/-- The head item retires, the freed place is offered, and the next item's walk begins; a walk over an empty list
retires its item in the same event (R46, R49). The fuel bounds the items that can follow one another. -/
def retire : Nat → State → State
  | 0, s => s
  | fuel + 1, s =>
    let s := { s with dose := { s.dose with queue := s.dose.queue.tail, cursor := none } }
    let s := s.servePending
    match s.dose.queue with
    | [] => s
    | item :: _ =>
      match s.zoneList item.tick.zone with
      | [] => retire fuel s
      | e :: _ => { s with dose := { s.dose with cursor := some e } }

/-- The head item retires (R49). Each retirement takes one item, and at most eight readings are pending. -/
def State.retireHead (s : State) : State := retire (s.dose.queue.length + 9) s

/-- The cursor is set, or the head retires when no lot is left to walk (R47, R48, R49). -/
def State.setCursor (s : State) (next : Option Nat) : State :=
  match next with
  | some e => { s with dose := { s.dose with cursor := some e } }
  | none => s.retireHead

/-- A tick is submitted; into an empty queue it becomes the head and its walk begins (R45, R46). -/
def State.submitTick (s : State) (t : Tick) : State :=
  let wasEmpty := s.dose.queue.isEmpty
  let s := s.appendItem t
  if wasEmpty then s.setCursor (s.zoneList t.zone).head? else s

/-- A lot leaves its zone list: the walk skips it, and a stall on it ends (R48, R50). -/
def State.leaveList (s : State) (e : Nat) : State :=
  let z := (s.lot e).zone
  let next := following e (s.zoneList z)
  let under := s.dose.cursor == some e
  let s := s.setZoneList z ((s.zoneList z).filter (· != e))
  if under then
    State.setCursor { s with dose := { s.dose with stalled := false, retry := false } } next
  else s

/-- A lot joins the tail of a zone list (R71). -/
def State.joinList (s : State) (e z : Nat) : State := s.setZoneList z (s.zoneList z ++ [e])

/-- A return: the lot leaves its place and joins the tail of the same list in one event. A lot that was under the cursor
is reached again at the tail, also when no lot followed it, and a stall on it ends (R71, R89, R113).
DEDUCED from R113 where R48 could be read otherwise, log entry 10. -/
def State.rejoinList (s : State) (e : Nat) : State :=
  let z := (s.lot e).zone
  let next := following e (s.zoneList z)
  let under := s.dose.cursor == some e
  let s := s.setZoneList z ((s.zoneList z).filter (· != e) ++ [e])
  if under then { s with dose := { s.dose with cursor := some (next.getD e), stalled := false, retry := false } } else s

/-- The fence item of a lot's zone: the newest item of the zone, when the lot's application of it has not been taken
(R51). -/
def State.fenceItem (s : State) (e : Nat) : Option Nat :=
  match (s.dose.queue.filter (fun i => i.tick.zone == (s.lot e).zone)).getLast? with
  | none => none
  | some i => if (s.lot e).lastApplied = some i.number then none else some i.number

/-- A commit or move takes its fence: the fence item is named and the zone's pending reading is forced
(R82 steps 2 and 3, R106 step 4). -/
def State.takeFence (s : State) (o : FenceOwner) (e : Nat) : State :=
  let z := (s.lot e).zone
  let f : Fence := ⟨o, e, z, s.fenceItem e, (s.zone z).pending.isSome⟩
  let s := s.forcePending z
  { s with fences := s.fences ++ [f] }

/-- The store controller tells the dose engine of an event that can turn a refusal into a grant (R50, R124). -/
def State.tellDose (s : State) : State :=
  if s.dose.stalled then { s with dose := { s.dose with retry := true } } else s

end Sys2Proof.Machine
end

