-- ==== Sys2Proof/Machine/Memory.lean ====
section
/-! DEFINITION. The custody array (R120, R136): 64 blocks of 16 pages of 8 slots of 64 bytes, byte addresses 0..524287.
It is a list of cells with strictly rising addresses; a byte that is not listed is erased and reads FF hexadecimal
(R120), and no cell lists that value. -/

namespace Sys2Proof.Machine

/-- The array as a list of cells. -/
abbrev Mem := List Host.Cell

/-- The value of an erased byte (R120). -/
def erasedByte : Byte := 0xFF#8

/-- The bytes of the array (R120). -/
def arrayBytes : Nat := 524288

/-- The bytes of a slot, a page and a block (R120). -/
def slotBytes : Nat := 64
def pageBytes : Nat := 512
def blockBytes : Nat := 8192

/-- Do the addresses rise strictly from `low` on, and is no listed byte the erased value? -/
def memWfFrom : Nat → Mem → Bool
  | _, [] => true
  | low, c :: cs => decide (low ≤ c.1) && (c.2 != erasedByte) && memWfFrom (c.1 + 1) cs

/-- The canonical form of the array. -/
def memWf (m : Mem) : Bool := memWfFrom 0 m

/-- The byte at an address. -/
def memRead : Mem → Nat → Byte
  | [], _ => erasedByte
  | c :: cs, a => if c.1 = a then c.2 else memRead cs a

/-- The cells below an address. -/
def memBelow (m : Mem) (a : Nat) : Mem := m.filter (fun c => c.1 < a)

/-- The cells from an address on. -/
def memFrom (m : Mem) (a : Nat) : Mem := m.filter (fun c => a ≤ c.1)

/-- Bytes laid from an address on, as cells; erased bytes are not listed. -/
def cellsOf : Nat → List Byte → Mem
  | _, [] => []
  | a, b :: bs => if b = erasedByte then cellsOf (a + 1) bs else (a, b) :: cellsOf (a + 1) bs

/-- The array with bytes written from an address on. -/
def memWrite (m : Mem) (a : Nat) (bytes : List Byte) : Mem :=
  memBelow m a ++ cellsOf a bytes ++ memFrom m (a + bytes.length)

/-- The array with `n` bytes erased from an address on. -/
def memErase (m : Mem) (a n : Nat) : Mem := memBelow m a ++ memFrom m (a + n)

/-- `n` bytes from address `a` on, read along cells that begin at or after it. -/
def readAlong : Mem → Nat → Nat → List Byte
  | _, _, 0 => []
  | [], a, n + 1 => erasedByte :: readAlong [] (a + 1) n
  | c :: cs, a, n + 1 =>
    if c.1 = a then c.2 :: readAlong cs (a + 1) n else erasedByte :: readAlong (c :: cs) (a + 1) n

/-- `n` bytes of the array from an address on. -/
def memSlice (m : Mem) (a n : Nat) : List Byte := readAlong (memFrom m a) a n

/-- Are `n` bytes of the array from an address on all erased? -/
def memErased (m : Mem) (a n : Nat) : Bool := m.all (fun c => c.1 < a || a + n ≤ c.1 || c.2 == erasedByte)

end Sys2Proof.Machine
end

