-- ==== Sys2Proof/Machine/StoreOps.lean ====
section
/-! DEFINITION. The store controller's shared operations: pages and the ring, pins, admission and reservations, going
out of a DEGRADED store, the settling of buffers, candidate, carry and array after an event (spec/06). -/

namespace Sys2Proof.Machine

/-! ## Blocks, pages and history (R131) -/

/-- A block index entry. -/
def Store.block (st : Store) (b : Nat) : Block := tabGet st.blocks b ⟨true, .bare, none⟩

/-- The store with a block index entry replaced. -/
def Store.setBlock (st : Store) (b : Nat) (x : Block) : Store := { st with blocks := tabPut st.blocks b x }

/-- The block numbers 0..63. -/
def blockNumbers : List Nat := numbersFrom 0 64

/-- The blocks after `h` in ring order, `h` itself last (R131). -/
def ringAfter (h : Nat) : List Nat := (numbersFrom (h + 1) 64).map (· % 64)

/-- The block of the head page. -/
def Store.headBlock (st : Store) : Nat := st.headPage / 16

/-- The number of ERASED blocks. -/
def Store.erasedBlocks (st : Store) : Nat := blockNumbers.countP (fun b => (st.block b).content == .erased)

/-- The number of usable blocks, those not retired (R129). -/
def Store.usableBlocks (st : Store) : Nat := blockNumbers.countP (fun b => !(st.block b).retired)

/-- The erased pages ahead of the head page (R131). -/
def Store.erasedPages (st : Store) : Nat :=
  (if (st.block st.headBlock).content == .head && !(st.block st.headBlock).retired then 15 - st.headPage % 16 else 0)
    + 16 * st.erasedBlocks

/-- The unused slots of the open fill page. -/
def Store.unusedSlots (st : Store) : Nat :=
  match st.fill with
  | some f => 8 - f.records.length
  | none => 0

/-- The headroom (R124). -/
def Store.headroom (st : Store) : Nat := st.unusedSlots + 8 * st.erasedPages

/-- The demand (R124). -/
def Store.demand (st : Store) : Nat := st.queue.length + st.reserved + st.carryDue

/-- Does a block hold history (R131)? -/
def Store.holdsHistory (st : Store) (b : Nat) : Bool :=
  (st.block b).content == .history || (st.block b).content == .head

/-- The oldest history block: the first after the head in ring order that is HISTORY or HEAD (R131). -/
def Store.oldestBlock (st : Store) : Option Nat := (ringAfter st.headBlock).find? st.holdsHistory

/-- The first sequence number of the oldest history block. -/
def Store.oldestSeq (st : Store) : Option Nat := st.oldestBlock.bind (fun b => (st.block b).firstSeq)

/-- Is a sequence number in history (R131)? -/
def Store.inHistory (st : Store) (seq : Nat) : Bool :=
  match st.oldestSeq with
  | none => false
  | some first => decide (first ≤ seq) && decide (seq < st.nextSeq) && (match st.goneFrom with
      | none => true
      | some g => decide (seq < g))

/-- The history block with the greatest first sequence number not above `seq`, among `bs`, with that number. -/
def Store.blockAmong (st : Store) (seq : Nat) : List Nat → Option (Nat × Nat)
  | [] => none
  | b :: bs =>
    match st.blockAmong seq bs, (st.block b).firstSeq with
    | r, none => r
    | r, some f =>
      if st.holdsHistory b && decide (f ≤ seq) then
        match r with
        | some (b', f') => if f' ≤ f then some (b, f) else some (b', f')
        | none => some (b, f)
      else r

/-- The block whose records include a sequence number, by the block index (R131). -/
def Store.blockOf (st : Store) (seq : Nat) : Option Nat := (st.blockAmong seq blockNumbers).map (·.1)

/-- Is the number one of a record of the candidate (R132)? -/
def Store.ofCandidate (st : Store) (seq : Nat) : Bool :=
  match st.candidate with
  | none => false
  | some c => st.blockOf seq == some c

/-- The CARRY copy of a record of the candidate, where one has been admitted. -/
def Store.copyOf (st : Store) (seq : Nat) : Option Nat := (st.copies.find? (fun c => c.old == seq)).map (·.new)

/-- The current number of a record (R138). -/
def Store.currentNumber (st : Store) (seq : Nat) : Nat := (st.copyOf seq).getD seq

/-! ## Reading the array -/

/-- The eight slots of a page. -/
def slotsOf (mem : Mem) (page : Nat) : List Slot :=
  (numbersFrom 0 8).map (fun k => Slot.ofBytes (memSlice mem (page * pageBytes + k * slotBytes) slotBytes))

/-- The records of slots. -/
def recordsIn : List Slot → List Record
  | [] => []
  | .record r :: ss => r :: recordsIn ss
  | _ :: ss => recordsIn ss

/-- The records of a page. -/
def pageRecords (mem : Mem) (page : Nat) : List Record := recordsIn (slotsOf mem page)

/-- Is every byte of a page erased? -/
def pageErased (mem : Mem) (page : Nat) : Bool := memErased mem (page * pageBytes) pageBytes

/-- The record of a number among the readable slots of the block that its read was granted on (R137). -/
def Store.readRecord (st : Store) (block : Option Nat) (seq : Nat) : Option Record :=
  match block with
  | none => none
  | some b => ((numbersFrom (16 * b) 16).flatMap (pageRecords st.mem)).find? (fun r => r.seq == seq)

/-- The records of the buffers and the queue, in sequence order (R130). -/
def Store.buffered (st : Store) : List Record :=
  (match st.program with | some p => p.records | none => [])
    ++ (match st.closed with | some p => p.records | none => [])
    ++ (match st.fill with | some f => f.records | none => [])
    ++ st.queue

/-- The record of a number in the queue or a page buffer. -/
def Store.bufferedRecord (st : Store) (seq : Nat) : Option Record := st.buffered.find? (fun r => r.seq == seq)

/-- A page of free bytes: what a cut-off or failed operation leaves (R129, R135, R195). -/
def State.scramble (s : State) (a n : Nat) : State :=
  { s with
    store := { s.store with mem := memWrite s.store.mem a (remnantBytes s.free a n) }
    free := s.free + 1 }

/-! ## Pins (R133, R145) -/

/-- The pin count of a number. -/
def Store.pinCount (st : Store) (seq : Nat) : Nat :=
  match st.pins.find? (fun p => p.seq == seq) with
  | some p => p.count
  | none => 0

/-- The origin of a number: kept beside its pin count while it is pinned, and its own number otherwise (R145). -/
def Store.originOf (st : Store) (seq : Nat) : Nat :=
  match st.pins.find? (fun p => p.seq == seq) with
  | some p => p.origin
  | none => seq

/-- The pins with one more for a number. -/
def pinAdd (seq origin : Nat) : List Pin → List Pin
  | [] => [⟨seq, 1, origin⟩]
  | p :: ps => if p.seq = seq then { p with count := p.count + 1 } :: ps else p :: pinAdd seq origin ps

/-- The pins with one fewer for a number; a count of 0 leaves the list. -/
def pinRemove (seq : Nat) : List Pin → List Pin
  | [] => []
  | p :: ps =>
    if p.seq = seq then (if p.count ≤ 1 then ps else { p with count := p.count - 1 } :: ps) else p :: pinRemove seq ps

/-- An add notice for a number and its origin (R133). For a copied record of the candidate it falls on the copy (R134). -/
def Store.addPin (st : Store) (seq origin : Nat) : Store :=
  let n := st.currentNumber seq
  let due := st.pinCount n == 0 && st.ofCandidate n
  { st with pins := pinAdd n origin st.pins, carryDue := if due then st.carryDue + 1 else st.carryDue }

/-- An add notice on the part. -/
def State.pin (s : State) (seq origin : Nat) : State := { s with store := s.store.addPin seq origin }

/-- A remove notice for a number (R133): a record of the candidate that is no longer pinned is not copied, and the
dose engine is told that the carry due has fallen (R124). -/
def State.unpin (s : State) (seq : Nat) : State :=
  let st := s.store
  let fell := st.pinCount seq == 1 && st.ofCandidate seq && (st.copyOf seq).isNone
  let st := { st with
    pins := pinRemove seq st.pins
    carryDue := if fell then st.carryDue - 1 else st.carryDue
    carryBuf := (match st.carryBuf with
      | some r => if fell && r.seq == seq then none else some r
      | none => none) }
  let s := { s with store := st }
  if fell then s.tellDose else s

/-! ## Waiting reads (R136) -/

/-- Is the read a carry read? -/
def ReadReq.carries : ReadReq → Bool
  | .carry _ => true
  | _ => false

/-- Is a read still to be made? One whose block has left history is not (R136). -/
def Store.readStands (st : Store) : ReadReq → Bool
  | .fetch seq _ => st.inHistory seq
  | .raise seq _ => st.inHistory seq
  | .carry seq => st.inHistory seq
  | .page _ => true

/-- The block that a read is granted on, by the block index as it stands (R131, R136). -/
def Store.readBlock (st : Store) : ReadReq → Option Nat
  | .fetch seq _ => st.blockOf seq
  | .raise seq _ => st.blockOf seq
  | .carry seq => st.blockOf seq
  | .page p => some (p / 16)

/-- The asker of a read that is not made is told NOT_FOUND (R136, R137, R154). -/
def State.readNotFound (s : State) : ReadReq → State
  | .fetch _ tag => State.answer { s with store := { s.store with fetch := none } } tag 40 .notFound []
  | .raise _ tag => State.answer { s with claims := { s.claims with raise := none } } tag 42 .notFound []
  | _ => s

/-- The oldest read that stands is granted (R136). -/
def grantReads : List ReadReq → State → State
  | [], s => { s with store := { s.store with reads := [] } }
  | r :: rs, s =>
    if s.store.readStands r then
      { s with store := { s.store with reads := rs, flight := some (.read r (s.store.readBlock r)) } }
    else grantReads rs (s.readNotFound r)

/-! ## Reports and going out (R112, R128, R130) -/

/-- The scanner whose last commit names a HANDOVER record that is not yet answered (R112). -/
def State.scannerOfRecord (s : State) (seq : Nat) : Option (Nat × LastCommit) :=
  firstSome (fun a => match s.scannerRecord a with
    | some r => match r.lastCommit with
      | some c => if c.seq == some seq && c.answer.isNone then some (a, c) else none
      | none => none
    | none => none) addresses

/-- The store controller's report on a record, to the hold controller (R112). -/
def State.reportRecord (s : State) (stored : Bool) (seq : Nat) : State :=
  match s.scannerOfRecord seq with
  | none => s
  | some (a, c) =>
    let f := c.figures.getD ⟨0, none, false⟩
    let ans : ScanAnswer := if stored then .stored seq f else .notStored seq f
    let s := s.modScanner a (fun r => { r with lastCommit := some { c with answer := some ans, stored := stored } })
    s.answerScanner a ⟨c.id, ans⟩

/-- A record goes out of a DEGRADED store: announced NOT_STORED, and reported not stored (R130). -/
def State.goOut (s : State) (r : Record) : State := (s.offer (.record .notStored r)).reportRecord false r.seq

/-- The store becomes DEGRADED (R130): every buffered record goes out in sequence order, operations in flight end
without result but for reads, the candidate and the carry are abandoned, the dose engine is told, and an array that has
become idle goes on to the next read. A carry read in flight ends with the carry it served. DEDUCED, log entry 16. -/
def State.enterDegraded (s : State) : State :=
  if s.store.status == .degraded then s
  else
    let out := s.store.buffered
    let st := s.store
    let s := { s with store := { st with
      status := .degraded
      queue := []
      fill := none
      closed := none
      program := none
      voiding := false
      flushMarks := []
      candidate := none
      copies := []
      carryDue := 0
      carryBuf := none
      flight := (match st.flight with
        | some (.read r b) => if r.carries then none else some (.read r b)
        | _ => none)
      reads := st.reads.filter (fun r => !r.carries)
      hold := false
      goneFrom := some (match out with
        | r :: _ => r.seq
        | [] => st.nextSeq) } }
    let s := State.tellDose (out.foldl State.goOut s)
    match s.store.flight with
    | some _ => s
    | none => grantReads s.store.reads s

/-! ## Targets (R126, R129, R131) -/

/-- The page after the head page for a new target: the next of the HEAD block, or page 0 of the first ERASED block after
it, which becomes HEAD; none when no erased page remains (R131). -/
def Store.nextTarget (st : Store) : Option Store :=
  let h := st.headBlock
  let bh := st.block h
  if bh.content == .head && !bh.retired && decide (st.headPage % 16 < 15) then
    some { st with headPage := st.headPage + 1 }
  else
    let st := if bh.content == .head then st.setBlock h { bh with content := .history } else st
    match (ringAfter h).find? (fun b => (st.block b).content == .erased) with
    | none => none
    | some b => some { st.setBlock b { st.block b with content := .head, firstSeq := none } with headPage := 16 * b }

/-- The first record of a block enters a page of it: the block index takes its number (R131). -/
def Store.noteFirst (st : Store) (page : Nat) (records : List Record) : Store :=
  let b := page / 16
  match (st.block b).firstSeq, records with
  | none, r :: _ => st.setBlock b { st.block b with firstSeq := some r.seq }
  | _, _ => st

/-- A new fill page opens at the next erased page; with none left the store becomes DEGRADED (R126, R129). -/
def State.openFill (s : State) : State :=
  match s.store.nextTarget with
  | some st => { s with store := { st with fill := some ⟨st.headPage, [], none, false⟩ } }
  | none => s.enterDegraded

/-- A page that holds `records` takes the next target, which `put` writes into its buffer; false when no erased page remains
(R129). -/
def Store.giveTarget (st : Store) (records : List Record) (put : Nat → Store → Store) : Bool × Store :=
  match st.nextTarget with
  | some t => (true, (put t.headPage t).noteFirst t.headPage records)
  | none => (false, st)

/-- The program page moves to the next target. -/
def Store.retargetProgram (st : Store) : Bool × Store :=
  match st.program with
  | some p => st.giveTarget p.records (fun n t => { t with program := some { p with target := n } })
  | none => (false, st)

/-- A closed page moves to the next target. -/
def Store.retargetClosed (st : Store) : Bool × Store :=
  match st.closed with
  | some c => st.giveTarget c.records (fun n t => { t with closed := some { c with target := n } })
  | none => (true, st)

/-- The fill page moves to the next target. -/
def Store.retargetFill (st : Store) : Bool × Store :=
  match st.fill with
  | some f => st.giveTarget f.records (fun n t => { t with fill := some { f with target := n } })
  | none => (true, st)

/-- The head page goes back to `base`; a later head block, which only held targets, is ERASED again (R129 step 2). -/
def Store.rewind (st : Store) (base : Nat) : Store :=
  let h := st.headBlock
  { (if h = base / 16 then st else st.setBlock h { st.block h with content := .erased, firstSeq := none }) with headPage := base }

/-- The targets of the program page, a closed page and the fill page are moved in order to the next erased pages after
the program page's old target `base` (R129 step 2, R142); false when no erased page remains for one of them. -/
def Store.retarget (st : Store) (base : Nat) : Bool × Store :=
  let one := (st.rewind base).retargetProgram
  let two := one.2.retargetClosed
  if one.1 then (if two.1 then two.2.retargetFill else two) else (false, st)

/-! ## Pages (R126 to R128) -/

/-- Does the fill page hold a record marked for a forced flush, or has its timer expired (R126, R127)? -/
def Store.flushAsked (st : Store) (f : FillPage) : Bool :=
  f.flushWanted || f.records.any (fun r => st.flushMarks.contains r.seq)

/-- Does the fill page close now (R126, R127)? A full page closes at once; a flush that is asked is taken where `flush` allows it,
when the headroom does. -/
def Store.closesNow (st : Store) (flush : Bool) (f : FillPage) : Bool :=
  st.status == .ready
    && (decide (8 ≤ f.records.length)
      || (flush && st.flushAsked f && !f.records.isEmpty && decide (st.demand ≤ st.headroom - st.unusedSlots)))

/-- A closed page becomes the program page, and a new fill page opens (R126, R128). -/
def State.startProgramPage (s : State) (p : PageBuf) : State :=
  State.openFill { s with store := { s.store with program := some p, closed := none, fill := none } }

/-- The fill page closes: its marks are spent, and it becomes the program page or waits (R126 to R128). -/
def State.closeFill (s : State) (f : FillPage) : State :=
  let p : PageBuf := ⟨f.target, f.records⟩
  let marks := s.store.flushMarks.filter (fun m => !f.records.any (fun r => r.seq == m))
  let s := { s with store := { s.store with flushMarks := marks } }
  if s.store.program.isNone then s.startProgramPage p
  else { s with store := { s.store with fill := none, closed := some p } }

/-- The record at the head of the queue moves into the fill page; the flush timer starts at the page's first record
(R126), and the dose engine is told (R123). -/
def State.moveRecord (s : State) (f : FillPage) (r : Record) (rest : List Record) : State :=
  let expiry := if f.records.isEmpty then some (addTime s.time.now s.trunk.settings.flushDelay) else f.flushExpiry
  let st := { s.store with
    queue := rest
    fill := some { f with records := f.records ++ [r], flushExpiry := expiry } }
  State.tellDose { s with store := st.noteFirst f.target [r] }

/-- One step of the buffers: a closed page moves on, the fill page closes, or a record moves into it. A page that has taken
a marked record closes before it takes another, unless its flush has to wait (R127); without `flush` every flush waits. -/
def State.pumpStep (flush : Bool) (s : State) : State :=
  match s.store.fill with
  | none =>
    match s.store.closed with
    | some p => if s.store.program.isNone then s.startProgramPage p else s
    | none => s
  | some f =>
    if s.store.closesNow flush f then s.closeFill f
    else match s.store.queue with
      | r :: rest => if f.records.length < 8 then s.moveRecord f r rest else s
      | [] => s

/-- `n` steps of the buffers. -/
def pumpSteps (flush : Bool) : Nat → State → State
  | 0, s => s
  | n + 1, s => pumpSteps flush n (s.pumpStep flush)

/-- The buffers settle: each queued record takes a step at most, and at most five page steps follow one event. -/
def State.pump (flush : Bool) (s : State) : State := pumpSteps flush (s.store.queue.length + 5) s

/-! ## Admission and reservations (R123 to R125, R130) -/

/-- The test of numbers for one unreserved admission (R123). -/
def Store.numbersAllowOne (st : Store) : Bool := decide (st.nextSeq + st.reserved ≤ 4294967294)

/-- The test of numbers for a reservation of `k` (R123). -/
def Store.numbersAllow (st : Store) (k : Nat) : Bool := decide (st.nextSeq + st.reserved + k ≤ 4294967295)

/-- Is the store READY, or SCANNING in its rebuild stage (R124)? -/
def Store.running (st : Store) : Bool := st.status == .ready || st.status == .rebuild

/-- The queue places that may be taken: 8, or 7 while carry is due (R124). -/
def Store.placesAllowed (st : Store) : Nat := if 0 < st.carryDue then 7 else 8

/-- May `k` admissions be granted or reserved, but for the test of numbers (R124, R125, R130)? -/
def Store.roomFor (st : Store) (k : Nat) : Bool :=
  st.status == .degraded
    || (st.running && !st.hold && decide (st.queue.length + st.reserved + k ≤ st.placesAllowed)
      && decide (st.demand + k ≤ st.headroom))

/-- A record as admission makes it: number, origin, common fields, chain value (R123). -/
def State.makeRecord (s : State) (body : RecordBody) : Record :=
  Record.chained s.store.lastChain
    { seq := s.store.nextSeq
      origin := s.store.nextSeq
      originChain := s.store.lastChain
      kind := body.kind
      carry := false
      unsynced := s.trunk.unsynced
      time := s.time.now
      epoch := s.trunk.settings.epoch
      partCode := s.trunk.settings.partCode
      fields := padTo 35 (body.bytes s.time.now)
      chain := 0 }

/-- A CARRY copy of a record (R120): its own number and chain value, all else copied. -/
def State.makeCopy (s : State) (r : Record) : Record :=
  Record.chained s.store.lastChain { r with seq := s.store.nextSeq, carry := true }

/-- A record is admitted: the numbering and the chain go on, and the record joins the queue, or goes out of a DEGRADED
store (R123, R130). A flush that waits is not taken inside the event that admits, which may admit more, but at its end (R127). -/
def State.admitRecord (s : State) (r : Record) : State :=
  let s := { s with store := { s.store with nextSeq := s.store.nextSeq + 1, lastChain := r.chain } }
  if s.store.status == .degraded then s.goOut r
  else State.pump false { s with store := { s.store with queue := s.store.queue ++ [r] } }

/-- An admission under a reservation (R125): the number it takes, and the part after it. -/
def State.admitReserved (s : State) (body : RecordBody) : Nat × State :=
  let s := { s with store := { s.store with reserved := s.store.reserved - 1 } }
  (s.store.nextSeq, s.admitRecord (s.makeRecord body))

/-- A refusal by the test of numbers makes the store DEGRADED, past the locate stage (R123, R129). -/
def State.exhaust (s : State) : State := if s.store.status == .locate then s else s.enterDegraded

/-- An unreserved admission is granted, with its number, or refused (R123, R124). -/
def State.tryAdmit (s : State) (body : RecordBody) : Option Nat × State :=
  if s.store.numbersAllowOne then
    if s.store.roomFor 1 then (some s.store.nextSeq, s.admitRecord (s.makeRecord body)) else (none, s)
  else (none, s.exhaust)

/-- A reservation of `k` admissions is granted or refused (R125). -/
def State.tryReserve (s : State) (k : Nat) : Bool × State :=
  if s.store.numbersAllow k then
    if s.store.roomFor k then (true, { s with store := { s.store with reserved := s.store.reserved + k } }) else (false, s)
  else (false, s.exhaust)

/-- Unused reserved admissions are released (R125); the dose engine is told (R124). -/
def State.releaseReserved (s : State) (k : Nat) : State :=
  if k = 0 then s
  else State.tellDose { s with store := { s.store with reserved := s.store.reserved - k } }

/-- May an event admit under a reservation now (R109, R125)? -/
def Store.admitting (st : Store) : Bool := st.status != .locate && !st.hold

/-! ## Candidate, hold and carry (R129, R132 to R135) -/

/-- The number of pinned records of a block (R132). -/
def Store.pinnedIn (st : Store) (b : Nat) : Nat := st.pins.countP (fun p => st.blockOf p.seq == some b)

/-- The first HISTORY block after the head in ring order (R132). -/
def Store.firstHistory (st : Store) : Option Nat :=
  (ringAfter st.headBlock).find? (fun b => (st.block b).content == .history)

/-- The test of R132: with fewer than 3 ERASED blocks and no candidate, the oldest history block becomes the candidate
and the carry due is set. A RETIRED candidate whose copies are stored becomes BARE, and the test is made again (R135). -/
def candidateTest : Nat → Store → Store
  | 0, st => st
  | n + 1, st =>
    if st.status == .ready then
      match st.candidate with
      | none =>
        if st.erasedBlocks < 3 then
          match st.firstHistory with
          | none => st
          | some b => candidateTest n { st with candidate := some b, copies := [], carryDue := st.pinnedIn b }
        else st
      | some c =>
        if (st.block c).retired && st.carryDue == 0 && st.copies.all (fun k => k.stored) then
          candidateTest n { st.setBlock c { st.block c with content := .bare, firstSeq := none } with
            candidate := none, copies := [] }
        else st
    else st

/-- The candidate test on the part; each round ends a candidate or chooses one. -/
def State.testCandidate (s : State) : State := { s with store := candidateTest 130 s.store }

/-- The admission hold ends at the first event after which the headroom covers the demand (R129); the dose engine is
told (R124). -/
def State.endHold (s : State) : State :=
  if s.store.hold && decide (s.store.demand ≤ s.store.headroom) then
    State.tellDose { s with store := { s.store with hold := false } }
  else s

/-- The least number of a list. -/
def least : List Nat → Option Nat
  | [] => none
  | n :: ns => match least ns with
    | some m => some (min n m)
    | none => some n

/-- The lowest-numbered pinned record of the candidate without a copy (R134). -/
def Store.nextCarry (st : Store) : Option Nat :=
  least ((st.pins.filter (fun p => st.ofCandidate p.seq && (st.copyOf p.seq).isNone)).map (fun p => p.seq))

/-- Is a carry read in flight, or waiting and still to be made? One whose block has left history stands in the way of none
(R134, R136). -/
def Store.carryReading (st : Store) : Bool :=
  (match st.flight with
    | some (.read r _) => r.carries
    | _ => false)
  || st.reads.any (fun r => r.carries && st.readStands r)

/-- The store controller asks for a carry read while carry is due (R134). -/
def Store.askCarry (st : Store) : Store :=
  if st.status == .ready && decide (0 < st.carryDue) && st.carryBuf.isNone && !st.carryReading then
    match st.nextCarry with
    | some seq => { st with reads := st.reads ++ [.carry seq] }
    | none => st
  else st

/-! ## The array arbiter (R136) -/

/-- The erase that is waiting: of a USABLE candidate with no carry due and every copy stored (R135), or one that a warm
restart found granted, which is asked again (R142). -/
def Store.eraseWaiting (st : Store) : Option Nat :=
  match st.candidate with
  | some c =>
    if st.status == .ready && !(st.block c).retired
        && ((st.block c).content == .history || (st.block c).content == .erasing) && st.carryDue == 0
        && st.copies.all (fun k => k.stored) then some c
    else none
  | none => none

/-- The program that is waiting: a void program first after a warm restart (R128, R142). -/
def Store.programWaiting (st : Store) : Option ArrayOp :=
  match st.program with
  | some p => if st.status == .ready then some (if st.voiding then .void p.target else .program p.target) else none
  | none => none

/-- The array arbiter grants when the array is idle: a program, an erase, the oldest read (R136). At the grant of an
erase the block becomes ERASING and its records leave history (R135). -/
def State.grantArray (s : State) : State :=
  match s.store.flight with
  | some _ => s
  | none =>
    match s.store.programWaiting with
    | some op => { s with store := { s.store with flight := some op } }
    | none =>
      match s.store.eraseWaiting with
      | some c => { s with store := { s.store.setBlock c { s.store.block c with content := .erasing, firstSeq := none } with
          flight := some (.erase c) } }
      | none => grantReads s.store.reads s

/-- The store settles after an event that changed it: candidate, buffers, candidate again, hold, carry read, array. -/
def State.settle (s : State) : State :=
  let s := (s.testCandidate.pump true).testCandidate.endHold
  State.grantArray { s with store := s.store.askCarry }

end Sys2Proof.Machine
end

