-- ==== Sys2Proof/Machine/Dose.lean ====
section
/-! DEFINITION. The dose engine: the arithmetic of one application (R52 to R62), excursion runs (R60, R61), evidence
lists (R85, R86), and the application of the head item (R47, R50). -/

namespace Sys2Proof.Machine

/-! ## The arithmetic of one application -/

/-- The lot's share of an item (R53). -/
def shareOf (t : Tick) (entered : Nat) : Nat := min t.span (t.time - entered)

/-- The door-open part of the share (R53). -/
def doorShareOf (t : Tick) (entered : Nat) : Nat := min t.openSeconds (shareOf t entered)

/-- The effective temperature (R54). -/
def effectiveTemp (k : TickKind) (lastTemp : Int) : Int :=
  match k with
  | .watched v => v
  | .blind v => v
  | .unseen penalty => min 960 (lastTemp + penalty)

/-- The door temperature (R54). -/
def doorTemp (eff : Int) (discount : Nat) : Int := max (-960) (eff - discount)

/-- The rate at a temperature (R55). -/
def rateAt (p : Profile) (t : Int) : Nat := (t - p.lower).toNat + (p.weight - 1) * (t - p.upper).toNat

/-- The increment (R56). -/
def increment (p : Profile) (eff door : Int) (share doorShare : Nat) : Nat :=
  rateAt p eff * (share - doorShare) + rateAt p door * doorShare

/-- The test temperature (R58). -/
def testTemp (eff door : Int) (share doorShare : Nat) : Int := if doorShare = share then door else eff

/-- The melt run after a share (R59). -/
def meltAfter (p : Profile) (tt : Int) (share run : Nat) : Nat := if p.upper < tt then satAdd max16 run share else 0

/-- The band of a run length (R61). -/
def bandOf (len : Nat) : Nat := if len ≤ 60 then 1 else if len ≤ 300 then 2 else if len ≤ 900 then 3 else if len ≤ 3600 then 4 else 5

/-- A run counted into its band, each counter saturating at 255 (R61). -/
def Bands.count (b : Bands) (len : Nat) : Bands :=
  match bandOf len with
  | 1 => { b with b1 := satAdd 255 b.b1 1 }
  | 2 => { b with b2 := satAdd 255 b.b2 1 }
  | 3 => { b with b3 := satAdd 255 b.b3 1 }
  | 4 => { b with b4 := satAdd 255 b.b4 1 }
  | _ => { b with b5 := satAdd 255 b.b5 1 }

/-- An open run extended by a share above L, or opened by it (R60). -/
def extendRun (r : Option Run) (time share : Nat) (tt : Int) : Run :=
  let r := r.getD ⟨time - share, 0, tt⟩
  { r with length := satAdd max32 r.length share, peak := max r.peak tt }

/-- An open run closes: it is counted and cleared; a length above 300 s makes an EXCURSION record due (R61). -/
def Lot.closeRun (l : Lot) : Lot × Option Run :=
  match l.run with
  | none => (l, none)
  | some r => ({ l with run := none, bands := l.bands.count r.length }, if 300 < r.length then some r else none)

/-- The excursion run after a share with test temperature `tt` (R60, R61). -/
def Lot.runAfter (l : Lot) (p : Profile) (time share : Nat) (tt : Int) : Lot × Option Run :=
  if p.lower < tt then ({ l with run := some (extendRun l.run time share tt) }, none) else l.closeRun

/-- One application of an item to a lot (R52 to R62): the lot after it, and the run whose EXCURSION record is due. -/
def Lot.charge (l : Lot) (i : DoseItem) (p : Profile) : Lot × Option Run :=
  let t := i.tick
  let share := shareOf t l.entered
  let doorShare := doorShareOf t l.entered
  let eff := effectiveTemp t.kind l.lastTemp
  let seen := { l with lastTemp := eff, lastApplied := some i.number, asOf := max l.asOf t.time }
  if share = 0 then (seen, none)
  else
    let door := doorTemp eff p.discount
    let tt := testTemp eff door share doorShare
    let sum := l.dose + increment p eff door share doorShare
    let melt := meltAfter p tt share l.meltRun
    let charged := { seen with
      dose := min max32 sum
      seconds := l.seconds + share
      doorOpenings := satAdd max16 l.doorOpenings t.openings
      doorSeconds := satAdd max32 l.doorSeconds doorShare
      peak := max l.peak tt
      meltRun := melt
      marks := { l.marks with
        melted := l.marks.melted || (decide (p.upper < tt) && decide (p.meltHold ≤ melt))
        gap := l.marks.gap || t.gap
        saturated := l.marks.saturated || decide (max32 ≤ sum) } }
    charged.runAfter p t.time share tt

/-- The dose threshold of a lot against a profile (R63). -/
def thresholdReached (p : Profile) (dose : Nat) : Bool := decide (0 < p.claimDose) && decide (p.claimDose * 960 ≤ dose)

/-- The threshold of a lot against its profile as it stands (R63). -/
def State.lotThreshold (s : State) (l : Lot) : Bool := thresholdReached (s.profile l.profile) l.dose

/-! ## Evidence lists (R85, R86) -/

/-- The evidence list with a number added; with 8 entries the oldest after the LOAD record is removed first.
The second value is the number removed (R86). -/
def addEvidence (ev : List Nat) (seq : Nat) : List Nat × Option Nat :=
  if ev.length < 8 then (ev ++ [seq], none)
  else match ev with
    | load :: old :: rest => (load :: rest ++ [seq], some old)
    | _ => (ev ++ [seq], none)

/-- A record's number joins a lot's evidence list, with the pin notices, removals first (R86). -/
def State.addLotEvidence (s : State) (e seq : Nat) : State :=
  let l := s.lot e
  let r := addEvidence l.evidence seq
  let marks := match r.2 with
    | some _ => { l.marks with trimmed := true }
    | none => l.marks
  let s := s.setLot e { l with evidence := r.1, marks := marks }
  let s := match r.2 with
    | some old => s.unpin old
    | none => s
  s.pin seq seq

/-! ## The application event (R47, R50) -/

/-- The body of the EXCURSION record of a closed run (R61). -/
def Lot.excursionBody (l : Lot) (r : Run) : RecordBody := .excursion l.id l.zone l.profile (bandOf r.length) r l.dose

/-- The application is taken: the lot is changed, the fence is told, and the cursor moves on (R47, R51). -/
def State.takeApplication (s : State) (e : Nat) (i : DoseItem) (l : Lot) : State :=
  let s := s.setLot e l
  let s := { s with
    dose := { s.dose with stalled := false, retry := false }
    fences := s.fences.map (Fence.applied e i.number) }
  s.setCursor (following e (s.zoneList i.tick.zone))

/-- The engine is stalled; the count rises when the stall begins (R50). DEDUCED for a refused retry, log entry 7.
`told` says that the refusal itself was an event of R124: the store's entry into DEGRADED. -/
def State.stall (s : State) (told : Bool) : State :=
  { s with dose := { s.dose with
      stalled := true
      retry := told
      stallCount := if s.dose.stalled then s.dose.stallCount else bump16 s.dose.stallCount } }

/-- The application of the head item to the lot under the cursor, with its EXCURSION record where one is due (R47, R50). -/
def State.applyItem (s : State) (e : Nat) (i : DoseItem) : State :=
  let r := (s.lot e).charge i (s.profile (s.lot e).profile)
  match r.2 with
  | none => s.takeApplication e i r.1
  | some run =>
    match s.tryAdmit (r.1.excursionBody run) with
    | (some seq, s') =>
      let s' := (s'.setLot e r.1).addLotEvidence e seq
      (s'.takeApplication e i (s'.lot e)).settle
    | (none, s') => s'.stall (s.store.status != s'.store.status)

/-- The event of the walk: a lot to which the head item has already been applied is passed over (R48), a stalled engine
waits to be told, and otherwise the head item is applied to the lot under the cursor. Passing over is an event of its own, and
not part of the one that brings the cursor to the lot. DESIGN CHOICE, log entry 34. -/
def State.walkEvent (s : State) : State :=
  match s.dose.queue, s.dose.cursor with
  | i :: _, some e =>
    if s.dose.stalled && !s.dose.retry then s
    else if (s.lot e).lastApplied = some i.number then s.setCursor (following e (s.zoneList i.tick.zone))
    else s.applyItem e i
  | _, _ => s

/-- ITEM_APPLICATION (R47). -/
def execItemApplication (s : State) : Host.Outcome State Fault Refusal := whenOn s State.walkEvent

end Sys2Proof.Machine
end

