-- ==== Sys2Proof/Machine/Claims.lean ====
section
/-! DEFINITION. The claim table: opening, adding, dropping, RAISE, CLAIM_READ, VERDICT, and the rebuild after a cold start
(spec/07). -/

namespace Sys2Proof.Machine

/-! ## The table -/

/-- The table is rebuilding (R144). -/
def ClaimTable.rebuilding (c : ClaimTable) : Bool := c.rebuild != .no

/-- The open claim of a consignment id. -/
def ClaimTable.forId (c : ClaimTable) (id : ConsId) : Option Claim := c.claims.find? (fun k => k.id == id)

/-- The open claim with a number. -/
def ClaimTable.forNumber (c : ClaimTable) (n : Nat) : Option Claim := c.claims.find? (fun k => k.number == n)

/-- The greatest number of open claims (R144). -/
def claimPlaces : Nat := 32

/-- The next claim number after one, wrapping from 65535 to 1 (R146). -/
def claimAfter (n : Nat) : Nat := if 65535 ≤ n then 1 else n + 1

/-- The first number from `n` on that no open claim holds (R146). The fuel covers 32 open claims. -/
def ClaimTable.freeNumber (c : ClaimTable) : Nat → Nat → Nat
  | 0, n => n
  | fuel + 1, n => if n = 0 ∨ (c.forNumber n).isSome then c.freeNumber fuel (claimAfter n) else n

/-- The claim number a claim takes as it opens (R146). -/
def ClaimTable.takeNumber (c : ClaimTable) : Nat := c.freeNumber (c.claims.length + 1) c.nextNumber

/-- An open claim replaced, by its number. -/
def ClaimTable.put (c : ClaimTable) (k : Claim) : ClaimTable :=
  { c with claims := c.claims.map (fun x => if x.number == k.number then k else x) }

/-- Add notices for the entries of a list (R145). -/
def State.pinAll (s : State) (l : List Named) : State := l.foldl (fun s n => s.pin n.current n.origin) s

/-- Remove notices for the entries of a list (R145). -/
def State.unpinAll (s : State) (l : List Named) : State := l.foldl (fun s n => s.unpin n.current) s

/-- Numbers with their origins, as an evidence list (R145). -/
def State.named (s : State) (seqs : List Nat) : List Named := seqs.map (fun n => ⟨n, s.store.originOf n⟩)

/-- The claim joins the tail of the list and the next number moves on (R144, R146). -/
def State.addClaim (s : State) (k : Claim) : State :=
  { s with claims := { s.claims with claims := s.claims.claims ++ [k], nextNumber := claimAfter k.number } }

/-- A claim as it opens (R149, R153): the record list is its CLAIM_OPEN record. -/
def State.newClaim (s : State) (number : Nat) (seen : Bool) (reasons : Reasons) (id : ConsId) (evidence : List Named)
    (record : Nat) : Claim where
  number := number
  seen := seen
  reasons := reasons
  id := id
  evidence := evidence
  records := [⟨record, record⟩]
  opened := s.time.now
  openedEpoch := s.trunk.settings.epoch
  openedUnsynced := s.trunk.unsynced

/-- The open claim number of a lot (R147). -/
def State.setLotClaim (s : State) (e : Nat) (n : Option Nat) : State := s.setLot e { s.lot e with claim := n }

/-- The open claim number of the lot on board that carries an id, where there is one (R147). -/
def State.setIdClaim (s : State) (id : ConsId) (n : Option Nat) : State :=
  match s.findLot id with
  | some e => s.setLotClaim e n
  | none => s

/-- A CLAIM_NOTICE is handed to the trunk controller (R152). -/
def State.notice (s : State) (kind : NoticeKind) (claim : Option Nat) (id : ConsId) (reasons added : Reasons)
    (handover : Nat) (record : Option Nat) (evidence : Nat) : State :=
  s.offer (.claimNotice
    { kind := kind, claim := claim, id := id, reasons := reasons, added := added, handover := handover
      claimRecord := record, evidence := evidence, time := s.time.now, epoch := s.trunk.settings.epoch
      unsynced := s.trunk.unsynced })

/-! ## Claims at handover (R148 to R151) -/

/-- The course for a due claim (R148). -/
inductive Course where
  | add (k : Claim)
  | open_
  | drop
  deriving DecidableEq, Repr

/-- The course the table chooses (R148). -/
def ClaimTable.course (c : ClaimTable) (id : ConsId) : Course :=
  if c.rebuilding then .drop
  else match c.forId id with
    | some k => .add k
    | none => if c.claims.length < claimPlaces then .open_ else .drop

/-- An evidence list of 9 entries loses the oldest after the first (R149 step 1). -/
def trimNine (l : List Named) : List Named :=
  if l.length ≤ 8 then l
  else match l with
    | a :: _ :: rest => a :: rest
    | l => l

/-- The OPEN course (R149): the number of the claim, and the part after it. -/
def State.openAtClosing (s : State) (e : Nat) (id : ConsId) (evidence : List Nat) (handover : Nat) (reasons : Reasons)
    (refuse : Bool) : Nat × State :=
  let named := trimNine (s.named evidence ++ [⟨handover, handover⟩])
  let number := s.claims.takeNumber
  let r := s.admitReserved (.claimOpen number id reasons false (named.map (fun n => n.origin)))
  let s := (r.2.pinAll named).pin r.1 r.1
  let s := s.addClaim (s.newClaim number false reasons id named r.1)
  let s := if refuse then s.setLotClaim e (some number) else s
  (number, s.notice .opened (some number) id reasons reasons handover (some r.1) named.length)

/-- The ADD course (R150): the number of the claim, and the part after it. -/
def State.addAtClosing (s : State) (e : Nat) (k : Claim) (handover : Nat) (reasons : Reasons) (refuse : Bool) : Nat × State :=
  let added := reasons.without k.reasons
  let joined := decide (k.evidence.length < 8)
  let evidence := if joined then k.evidence ++ [⟨handover, handover⟩] else k.evidence
  let r := s.admitReserved (.claimAdd k.number k.id added false joined handover)
  let listed := added.any || joined
  let k' := { k with
    reasons := k.reasons.union reasons
    evidence := evidence
    records := if listed then k.records ++ [⟨r.1, r.1⟩] else k.records }
  let s := if joined then r.2.pin handover handover else r.2
  let s := if listed then s.pin r.1 r.1 else s
  let s := { s with claims := s.claims.put k' }
  let s := if refuse then s.setLotClaim e (some k.number) else s
  (k.number, s.notice .added (some k.number) k.id k'.reasons added handover (some r.1) evidence.length)

/-- The DROP course (R151). -/
def State.dropAtClosing (s : State) (id : ConsId) (handover : Nat) (reasons : Reasons) : State :=
  State.notice { s with claims := { s.claims with dropped := bump16 s.claims.dropped } }
    .dropped none id reasons .none handover none 0

/-! ## RAISE (R153 to R155) -/

/-- A RAISE answer (R169). -/
def State.answerRaise (s : State) (tag : Byte) (code : Code) (vals : List Val) : State := s.answer tag 42 code vals

/-- A refusal of the admission: nothing changes, but for the test of numbers (R123, R153). Where that makes the store DEGRADED,
the records of that entry go out before the STORE_BUSY answer. DESIGN CHOICE, log entry 42. -/
def State.raiseRefused (s : State) (tag : Byte) : State :=
  State.answerRaise (if s.store.numbersAllowOne then s else s.exhaust) tag .storeBusy []

/-- A RAISE opens a claim on an evidence list (R153, R154): the add notices come before the admission. -/
def State.raiseOpen (s : State) (tag : Byte) (id : ConsId) (evidence : List Named) : State :=
  let number := s.claims.takeNumber
  match (s.pinAll evidence).tryAdmit (.claimOpen number id .manualOnly true (evidence.map (fun n => n.origin))) with
  | (none, _) => s.raiseRefused tag
  | (some seq, s') =>
    let s' := s'.pin seq seq
    let s' := s'.addClaim (s'.newClaim number true .manualOnly id evidence seq)
    ((s'.setIdClaim id (some number)).answerRaise tag .ok [.num 2 number, .num 4 seq]).settle

/-- A RAISE finds a claim open for its consignment (R155); `record` is the entry of a RAISE naming a record. -/
def State.raiseOnOpen (s : State) (tag : Byte) (k : Claim) (record : Option Named) : State :=
  let added := Reasons.manualOnly.without k.reasons
  let joins := match record with
    | some n => if decide (k.evidence.length < 8) && !k.evidence.any (fun x => x.origin == n.origin) then some n else none
    | none => none
  let joined := joins.toList
  if added.any || joins.isSome then
    let origin := match record with
      | some n => n.origin
      | none => 0
    match (s.pinAll joined).tryAdmit (.claimAdd k.number k.id added true joins.isSome origin) with
    | (none, _) => s.raiseRefused tag
    | (some seq, s') =>
      let s' := s'.pin seq seq
      let k' := { k with
        reasons := k.reasons.union added
        evidence := k.evidence ++ joined
        records := k.records ++ [⟨seq, seq⟩] }
      (State.answerRaise { s' with claims := s'.claims.put k' } tag .alreadyOpen [.num 2 k.number]).settle
  else s.answerRaise tag .alreadyOpen [.num 2 k.number]

/-- RAISE naming a consignment id (R153). -/
def State.raiseId (s : State) (tag : Byte) (id : ConsId) : State :=
  if s.claims.rebuilding then s.answerRaise tag .notReady []
  else match s.findLot id with
    | none => s.answerRaise tag .unknownLot []
    | some e =>
      if (s.lot e).state = .closing then s.answerRaise tag .busy []
      else match s.claims.forId id with
        | some k => s.raiseOnOpen tag k none
        | none =>
          if s.claims.claims.length < claimPlaces then s.raiseOpen tag id (s.named (s.lot e).evidence)
          else s.answerRaise tag .claimsFull []

/-- Is the lot on board that carries an id CLOSING? -/
def State.idClosing (s : State) (id : ConsId) : Bool :=
  match s.findLot id with
  | some e => (s.lot e).state == .closing
  | none => false

/-- RAISE naming a record, with the record in hand (R154 checks 4 to 8). -/
def State.raiseWith (s : State) (tag : Byte) (seq : Nat) (r : Record) : State :=
  match r.consignment with
  | none => s.answerRaise tag .badRecord []
  | some id =>
    if s.idClosing id then s.answerRaise tag .busy []
    else
      let entry : Named := ⟨s.store.currentNumber seq, r.origin⟩
      match s.claims.forId id with
      | some k => s.raiseOnOpen tag k (some entry)
      | none =>
        if s.claims.claims.length < claimPlaces then s.raiseOpen tag id [entry] else s.answerRaise tag .claimsFull []

/-- RAISE naming a record (R154). -/
def State.raiseRecord (s : State) (tag : Byte) (seq : Nat) : State :=
  if s.claims.rebuilding then s.answerRaise tag .notReady []
  else if s.claims.raise.isSome then s.answerRaise tag .busy []
  else if s.store.inHistory seq then
    match s.store.bufferedRecord seq with
    | some r => s.raiseWith tag seq r
    | none => State.grantArray { s with
        store := { s.store with reads := s.store.reads ++ [.raise seq tag] }
        claims := { s.claims with raise := some (seq, tag) } }
  else s.answerRaise tag .notFound []

/-- RAISE_BY_ID (R153). -/
def execRaiseById (tag : Byte) (id : ConsId) (s : State) : Host.Outcome State Fault Refusal :=
  whenOn s (fun s => s.raiseId tag id)

/-- RAISE_BY_RECORD (R154). -/
def execRaiseByRecord (tag : Byte) (seq : Word32) (s : State) : Host.Outcome State Fault Refusal :=
  whenOn s (fun s => s.raiseRecord tag seq.toNat)

/-! ## CLAIM_READ and VERDICT (R157 to R159) -/

/-- The section of a claim (R158), after its number and consignment id. -/
def State.claimSection (s : State) (k : Claim) : Nat → Option (List Val)
  | 1 => some
    [.num 1 (bitOf k.seen), .num 1 k.reasons.toNat, .num 4 k.opened, .num 4 k.openedEpoch, .flag k.openedUnsynced,
      .num 4 ((k.records.head?.map (fun n => n.current)).getD 0), .num 1 k.evidence.length, .num 1 k.records.length,
      .flag (s.findLot k.id).isSome, .num 1 ((s.findLot k.id).getD 0)]
  | 2 => some (k.evidence.map (fun n => .num 4 n.current))
  | 3 => some (k.evidence.map (fun n => .num 4 n.origin))
  | _ => none

/-- The claim a CLAIM_READ selects, or the code that refuses it (R157). -/
def ClaimTable.selected (c : ClaimTable) (number : Nat) : Code × Option Claim :=
  if number = 0 then (.noneNew, c.claims.find? (fun k => !k.seen)) else (.notOpen, c.forNumber number)

/-- CLAIM_READ on the part (R157, R158). -/
def State.readClaim (s : State) (tag : Byte) (number : Nat) (take : Bool) (sec : Nat) : State :=
  if s.claims.rebuilding then s.answer tag 41 .notReady []
  else if sec < 1 ∨ 3 < sec then s.answer tag 41 .badSection []
  else match s.claims.selected number with
    | (code, none) => s.answer tag 41 code []
    | (_, some k) =>
      let vals := (s.claimSection k sec).getD []
      let s := if take then { s with claims := s.claims.put { k with seen := true } } else s
      s.answer tag 41 .ok (.num 2 k.number :: .num 5 k.id.toNat :: vals)

/-- CLAIM_READ (R157). -/
def execClaimRead (tag : Byte) (number : BitVec 16) (take section_ : Byte) (s : State) : Host.Outcome State Fault Refusal :=
  whenOn s (fun s => s.readClaim tag number.toNat (yes take) section_.toNat)

/-- A claim closes (R159 steps 2 to 4). -/
def State.closeClaim (s : State) (k : Claim) : State :=
  let s := (s.unpinAll k.evidence).unpinAll k.records
  let s := { s with claims := { s.claims with claims := s.claims.claims.filter (fun x => x.number != k.number) } }
  s.setIdClaim k.id none

/-- VERDICT on the part (R159). Where the test of numbers makes the store DEGRADED, the records of that entry go out before the
STORE_BUSY answer. DESIGN CHOICE, log entry 42. -/
def State.giveVerdict (s : State) (tag : Byte) (number verdict : Nat) : State :=
  if s.claims.rebuilding then s.answer tag 43 .notReady []
  else if verdict < 1 ∨ 4 ≤ verdict then s.answer tag 43 .badVerdict []
  else match s.claims.forNumber number with
    | none => s.answer tag 43 .notOpen []
    | some k =>
      let openOrigin := (k.records.head?.map (fun n => n.origin)).getD 0
      match s.tryAdmit (.claimClose k.number k.id k.reasons verdict openOrigin) with
      | (none, s) => s.answer tag 43 .storeBusy []
      | (some seq, s) => ((s.closeClaim k).answer tag 43 .ok [.num 4 seq]).settle

/-- VERDICT (R159). -/
def execVerdict (tag : Byte) (number : BitVec 16) (verdict : Byte) (s : State) : Host.Outcome State Fault Refusal :=
  whenOn s (fun s => s.giveVerdict tag number.toNat verdict.toNat)

/-! ## The rebuild (R160 to R162) -/

/-- The programmed pages of history in ring order, from the oldest history block to the last page programmed before the head
page (R160). A page counts as programmed when it is not wholly erased. DEDUCED, log entry 36. -/
def Store.historyPages (st : Store) : List Nat :=
  ((ringAfter st.headBlock).filter st.holdsHistory).flatMap
    (fun b => (numbersFrom (16 * b) 16).filter (fun p => !pageErased st.mem p))

/-- Is the record a claim record (R160)? -/
def Record.isClaim (r : Record) : Bool := decide (6 ≤ r.kind) && decide (r.kind ≤ 8)

/-- One record of the claim pass is noted, once for each origin, and its claim number counts for the highest (R160). -/
def ClaimTable.note (c : ClaimTable) (r : Record) : ClaimTable :=
  if r.isClaim then
    { c with
      notes := if c.notes.any (fun n => n.origin == r.origin) then c.notes else c.notes ++ [r]
      highest := max c.highest r.claimNumber }
  else c

/-- Insertion of a noted record by origin. -/
def insertNote (r : Record) : List Record → List Record
  | [] => [r]
  | x :: xs => if r.origin < x.origin then r :: x :: xs else x :: insertNote r xs

/-- A CLAIM_ADD applied to the reinstated entry it names (R161). -/
def Claim.addNote (k : Claim) (r : Record) : Claim :=
  if k.number == r.claimNumber && r.consignment == some k.id then
    { k with
      reasons := k.reasons.union r.claimReasons
      evidence := if r.claimJoined then k.evidence ++ [⟨0, r.claimOrigin⟩] else k.evidence
      records := if r.claimReasons.any || r.claimJoined then k.records ++ [⟨0, r.origin⟩] else k.records }
  else k

/-- One noted record applied to the reinstated claims (R161). -/
def applyNote (ks : List Claim) (r : Record) : List Claim :=
  if r.kind = 6 then
    let id := r.consignment.getD 0
    if decide (ks.length < claimPlaces) && !ks.any (fun k => k.number == r.claimNumber || k.id == id) then
      ks ++ [{ number := r.claimNumber, seen := true, reasons := r.claimReasons, id := id
               evidence := r.openOrigins.map (fun o => ⟨0, o⟩), records := [⟨0, r.origin⟩]
               opened := r.time, openedEpoch := r.epoch, openedUnsynced := r.unsynced }]
    else ks
  else if r.kind = 7 then ks.map (fun k => k.addNote r)
  else ks.filter (fun k => k.number != r.claimNumber)

/-- The claims that the noted records reinstate (R161). -/
def reinstated (notes : List Record) : List Claim := (notes.foldr insertNote []).foldl applyNote []

/-- One record read in the mapping pass (R162). -/
def Named.map (r : Record) (n : Named) : Named := if n.origin == r.origin then { n with current := r.seq } else n

/-- One record read in the mapping pass, over a claim (R162). -/
def Claim.mapRecord (r : Record) (k : Claim) : Claim :=
  { k with evidence := k.evidence.map (Named.map r), records := k.records.map (Named.map r) }

/-- A claim as the mapping pass leaves it: evidence that no record carries is removed, and an evidence list left empty
takes the CLAIM_OPEN record (R162). -/
def Claim.mapped (k : Claim) : Claim :=
  let ev := k.evidence.filter (fun n => n.current != 0)
  { k with evidence := if ev.isEmpty then k.records.take 1 else ev }

/-- Add notices for every reinstated claim (R162 step 1). -/
def State.pinClaims (s : State) (ks : List Claim) : State := ks.foldl (fun s k => (s.pinAll k.evidence).pinAll k.records) s

/-- The fill page's timer, where it has expired, asks for its flush (R126, R141, R197). -/
def Store.expireFlush (st : Store) (now : Nat) : Store :=
  match st.fill with
  | some f => if reached now f.flushExpiry then { st with fill := some { f with flushWanted := true } } else st
  | none => st

/-- The store controller leaves its rebuild stage: READY, or DEGRADED with fewer than 8 usable blocks. In a READY store an expired
timer closes the fill page at once, before the test of R132, which the settling of the event makes (R141). -/
def State.storeRebuilt (s : State) : State :=
  if s.store.status == .rebuild then
    if s.store.usableBlocks < 8 then s.enterDegraded
    else State.pump true { s with store := Store.expireFlush { s.store with status := .ready } s.time.now }
  else s

/-- The table completes its rebuild in one event (R162). -/
def State.endRebuild (s : State) : State :=
  let ks := s.claims.claims.map Claim.mapped
  let next := if s.claims.highest = 0 then 1 else claimAfter s.claims.highest
  let s := { s with claims := { s.claims with
    claims := ks, nextNumber := next, rebuild := .no, notes := [], highest := 0 } }
  let s := s.pinClaims ks
  let s := ks.foldl (fun s k => s.setIdClaim k.id (some k.number)) s
  s.storeRebuilt

/-- A rebuild read of a page is asked (R160). -/
def State.askPage (s : State) (page : Nat) : State :=
  { s with store := { s.store with reads := s.store.reads ++ [.page page] } }

/-- The rebuild begins with its claim pass, or ends at once when there is no page to read (R160). -/
def State.beginRebuild (s : State) : State :=
  match s.store.historyPages with
  | [] => s.endRebuild
  | p :: _ => State.askPage { s with claims := { s.claims with rebuild := .claimPass 0 } } p

/-- A page of the rebuild has been read (R160 to R162). -/
def State.rebuildPage (s : State) (page : Nat) : State :=
  let pages := s.store.historyPages
  let recs := pageRecords s.store.mem page
  match s.claims.rebuild with
  | .claimPass k =>
    let c := recs.foldl ClaimTable.note s.claims
    match pages.drop (k + 1) with
    | p :: _ => State.askPage { s with claims := { c with rebuild := .claimPass (k + 1) } } p
    | [] => match pages with
      | p :: _ => State.askPage { s with claims := { c with claims := reinstated c.notes, rebuild := .mappingPass 0 } } p
      | [] => State.endRebuild { s with claims := { c with claims := reinstated c.notes } }
  | .mappingPass k =>
    let c := { s.claims with claims := s.claims.claims.map (fun x => recs.foldl (fun x r => x.mapRecord r) x) }
    match pages.drop (k + 1) with
    | p :: _ => State.askPage { s with claims := { c with rebuild := .mappingPass (k + 1) } } p
    | [] => State.endRebuild { s with claims := c }
  | _ => s

/-- A rebuild read completes (R154, R160); a RAISE's record is sought in the block that the read was granted on, and one that
is not among its readable slots is NOT_FOUND, as R137 says of a FETCH. DEDUCED, log entry 44. -/
def State.rebuildReadDone (s : State) : State :=
  match s.store.flight with
  | some (.read (.page page) _) => (State.rebuildPage { s with store := { s.store with flight := none } } page).settle
  | some (.read (.raise seq tag) b) =>
    let s := { s with
      store := { s.store with flight := none }
      claims := { s.claims with raise := none } }
    (match s.store.readRecord b seq with
      | some r => s.raiseWith tag seq r
      | none => s.answerRaise tag .notFound []).grantArray
  | _ => s

/-- REBUILD_READ (R160). -/
def execRebuildRead (s : State) : Host.Outcome State Fault Refusal := whenOn s State.rebuildReadDone

end Sys2Proof.Machine
end

