-- ==== Sys2Proof/Machine/Holds.lean ====
section
/-! DEFINITION. The hold controller: HOLD, RELEASE, COMMIT as it decides them, expiry, and the closing event (spec/05). -/

namespace Sys2Proof.Machine

/-! ## Tokens and scanner records -/

/-- The tokens 0..3. -/
def tokenNumbers : List Nat := numbersFrom 0 4

/-- The lowest-numbered FREE token (R99). -/
def State.freeToken (s : State) : Option Nat := tokenNumbers.find? (fun k => (s.token k).isNone)

/-- The current token of a scanner (R97). -/
def State.currentToken (s : State) (a : Nat) : Option Nat := (s.scannerRecord a).bind (fun r => r.token)

/-- The consignment id that a token names. -/
def State.tokenId (s : State) (k : Nat) : ConsId :=
  match s.token k with
  | some u => u.id
  | none => 0

/-- The state of the lot that a token names. -/
def State.tokenLotState (s : State) (k : Nat) : LotState :=
  match s.token k with
  | some u => (s.lot u.entry).state
  | none => .free

/-- Does the scanner's current token name a lot of this id in this state? -/
def State.holds (s : State) (a : Nat) (id : ConsId) (st : LotState) : Bool :=
  match s.currentToken a with
  | some k => s.tokenId k == id && s.tokenLotState k == st
  | none => false

/-- A hold ends: the token becomes FREE, the lot RESIDENT, and the scanner's current token absent (R7, R101, R102). -/
def State.freeHold (s : State) (k : Nat) : State :=
  match s.token k with
  | none => s
  | some u =>
    let s := s.setToken k none
    let s := s.setLot u.entry { s.lot u.entry with state := .resident, token := none }
    s.modScanner u.scanner (fun r => { r with token := none })

/-! ## HOLD (R99, R100) -/

/-- A HOLD is granted (R99). -/
def State.grantHold (s : State) (a k e : Nat) (id : ConsId) : State :=
  let s := s.setToken k (some ⟨e, id, a, s.time.now, some (addTime s.time.now s.trunk.settings.holdLimit), none⟩)
  let s := s.setLot e { s.lot e with state := .held, token := some k }
  let s := s.modScanner a (fun r => { r with token := some k })
  { s with hold := { s.hold with grants := bump16 s.hold.grants } }

/-- The figures of a GRANTED answer (R114). -/
def State.grantedAnswer (s : State) (e : Nat) : ScanAnswer :=
  let l := s.lot e
  .granted l.zone (reportedMinutes l.dose) l.peak l.marks.melted l.marks.returned s.trunk.settings.holdLimit

/-- A HOLD is decided on a lot that is on board (R99 checks 3 to 5). -/
def State.decideHoldLot (s : State) (a e : Nat) (id : ConsId) : ScanAnswer × State :=
  match (s.lot e).state with
  | .closing => (.busy .closing, s)
  | .moving => (.busy .moving, s)
  | .held => (.held (match (s.lot e).token.bind s.token with
      | some u => u.scanner
      | none => 0), s)
  | _ => match s.freeToken with
    | none => (.noToken, s)
    | some k => (s.grantedAnswer e, s.grantHold a k e id)

/-- A HOLD is decided (R99). -/
def State.decideHold (s : State) (a : Nat) (id : ConsId) : ScanAnswer × State :=
  match s.currentToken a with
  | some k => (.alreadyHolding (s.tokenId k), s)
  | none => match s.findLot id with
    | none => (.unknownLot, s)
    | some e => s.decideHoldLot a e id

/-- The hold controller takes a HOLD: its answer is returned, and it is a wake request (R98 to R100). -/
def State.takeHold (s : State) (a : Nat) (id : ConsId) : State :=
  let r := s.decideHold a id
  (r.2.answerScanner a ⟨id, r.1⟩).wake .scan

/-! ## RELEASE (R101) -/

/-- A RELEASE is decided (R101). -/
def State.decideRelease (s : State) (a : Nat) (id : ConsId) : ScanAnswer × State :=
  match s.currentToken a with
  | none => (.notHeld, s)
  | some k =>
    if s.tokenId k = id then
      match s.tokenLotState k with
      | .held => (.released, s.freeHold k)
      | .closing => (.busy .closing, s)
      | _ => (.notHeld, s)
    else (.notHeld, s)

/-- The hold controller takes a RELEASE. -/
def State.takeRelease (s : State) (a : Nat) (id : ConsId) : State :=
  let r := s.decideRelease a id
  r.2.answerScanner a ⟨id, r.1⟩

/-! ## COMMIT (R104 to R106) -/

/-- How a COMMIT is taken (R104): answered from the last commit, left to be answered later, or decided as new. -/
inductive CommitCase where
  | stored (a : ScanAnswer)
  | later
  | fresh
  deriving DecidableEq, Repr

/-- Is the COMMIT a repeat, and at which stage (R104)? -/
def State.commitCase (s : State) (a : Nat) (id : ConsId) : CommitCase :=
  match (s.scannerRecord a).bind (fun r => r.lastCommit) with
  | none => .fresh
  | some c =>
    if c.id ≠ id then .fresh
    else if s.holds a id .held then .fresh
    else match c.answer, c.seq with
      | some ans, _ => .stored ans
      | none, some _ => .later
      | none, none => if s.holds a id .closing then .later else .fresh

/-- Is the outcome unknown, or the refuse reason of a REFUSE out of range (R105 check 1)? -/
def badOutcome (outcome reason : Nat) : Bool :=
  decide (1 < outcome) || (outcome == 1 && (reason == 0 || decide (15 < reason)))

/-- A COMMIT is accepted, its 3 admissions being reserved (R106). -/
def State.acceptCommit (s : State) (a k : Nat) (u : TokenUse) (recipient : Word32) (outcome reason : Nat) : State :=
  let refuse := outcome == 1
  let s := s.setLot u.entry { s.lot u.entry with state := .closing }
  let s := s.setToken k (some { u with
    expiry := none, commit := some ⟨recipient, refuse, if refuse then reason else 0⟩ })
  let s := s.modScanner a (fun r => { r with lastCommit := some ⟨u.id, none, none, none, false⟩ })
  s.takeFence (.commit k) u.entry

/-- A COMMIT that is no repeat is decided: refused with an answer, or accepted with none yet (R105, R106). -/
def State.decideCommit (s : State) (a : Nat) (id : ConsId) (recipient : Word32) (outcome reason : Nat) :
    Option ScanAnswer × State :=
  if badOutcome outcome reason then (some .badOutcome, s)
  else match s.currentToken a with
    | none =>
      if (s.scannerRecord a).bind (fun r => r.lastExpired) = some id then (some .late, s) else (some .notHeld, s)
    | some k => match s.token k with
      | none => (some .notHeld, s)
      | some u =>
        if u.id ≠ id then (some (.mismatch u.id), s)
        else match s.tryReserve 3 with
          | (false, s) => (some .storeBusy, s)
          | (true, s) => (none, s.acceptCommit a k u recipient outcome reason)

/-- The hold controller takes a COMMIT (R104 to R106). Where the test of numbers makes the store DEGRADED, the reports of that
entry come before the STORE_BUSY answer, and may take the outstanding request. DESIGN CHOICE, log entry 42. -/
def State.takeCommit (s : State) (a : Nat) (id : ConsId) (recipient : Word32) (outcome reason : Nat) : State :=
  match s.commitCase a id with
  | .stored ans => s.answerScanner a ⟨id, ans⟩
  | .later => s
  | .fresh => match s.decideCommit a id recipient outcome reason with
    | (some ans, s) => s.answerScanner a ⟨id, ans⟩
    | (none, s) => s

/-! ## Expiry (R102) -/

/-- A token expires (R102). -/
def State.expireHold (s : State) (k : Nat) (u : TokenUse) : State :=
  let s := (s.freeHold k).modScanner u.scanner (fun r => { r with lastExpired := some u.id })
  { s with hold := { s.hold with expiries := bump16 s.hold.expiries } }

/-- HOLD_EXPIRY (R102): the expiry of a token is taken when its time is reached. -/
def execHoldExpiry (token : Nat) (s : State) : Host.Outcome State Fault Refusal :=
  whenOn s (fun s => match s.token token with
    | none => s
    | some u => if reached s.time.now u.expiry then s.expireHold token u else s)

/-! ## The closing event (R109 to R113) -/

/-- Step 1: an open run is closed, with its EXCURSION record where one is due (R110). The number counts the reserved
admissions used. -/
def State.closeAccount (s : State) (e : Nat) : Nat × State :=
  let r := (s.lot e).closeRun
  let s := s.setLot e r.1
  match r.2 with
  | none => (0, s)
  | some run =>
    let a := s.admitReserved (r.1.excursionBody run)
    (1, a.2.addLotEvidence e a.1)

/-- The reasons for which a claim is due at a closing (R111). -/
def State.dueReasons (s : State) (e : Nat) (refuse : Bool) : Reasons :=
  let l := s.lot e
  ⟨s.lotThreshold l, l.marks.melted, l.marks.gap, refuse, false⟩

/-- The body of the HANDOVER record (R110, R207). -/
def State.handoverBody (s : State) (e : Nat) (c : CommitField) (dropped : Bool) : RecordBody :=
  let l := s.lot e
  .handover l.id e l.zone l.profile c.refuse c.reason l.marks (s.lotThreshold l) dropped l.quantity c.recipient
    l.custodyStart l.asOf l.dose l.seconds l.peak l.lastTemp l.bands l.doorOpenings l.doorSeconds

/-- Step 3: the claim, by the course chosen (R111). The first value is the claim's number, the second counts the reserved
admissions used. -/
def State.claimStep (s : State) (e handover : Nat) (reasons : Reasons) (refuse : Bool) (course : Course) :
    Option Nat × Nat × State :=
  if reasons.any then
    let l := s.lot e
    match course with
    | .add k =>
      let r := s.addAtClosing e k handover reasons refuse
      (some r.1, 1, r.2)
    | .open_ =>
      let r := s.openAtClosing e l.id l.evidence handover reasons refuse
      (some r.1, 1, r.2)
    | .drop => (none, 0, s.dropAtClosing l.id handover reasons)
  else (none, 0, s)

/-- A freeing (R88). -/
def State.freeLot (s : State) (e : Nat) : State :=
  let evidence := (s.lot e).evidence
  let s := s.leaveList e
  let s := evidence.foldl State.unpin s
  let s := s.setLot e .blank
  { s with pool := { s.pool with free := s.pool.free ++ [e] } }

/-- A return (R89). -/
def State.returnLot (s : State) (e handover : Nat) : State :=
  let s := (s.rejoinList e).addLotEvidence e handover
  let l := s.lot e
  s.setLot e { l with
    state := .resident
    token := none
    entered := s.time.now
    marks := { l.marks with returned := true } }

/-- Step 4: the token becomes FREE (R112). -/
def State.endToken (s : State) (k : Nat) (u : TokenUse) : State :=
  let s := (s.setToken k none).modScanner u.scanner (fun r => { r with token := none })
  { s.dropFence (.commit k) with hold := { s.hold with closings := bump16 s.hold.closings } }

/-- A forced flush is asked: the newest record admitted is marked, while the queue or the fill page holds it (R127). -/
def Store.markNewest (st : Store) : Store :=
  let newest := st.nextSeq - 1
  let filling := match st.fill with
    | some f => f.records
    | none => []
  if (st.queue ++ filling).any (fun r => r.seq == newest) then { st with flushMarks := st.flushMarks ++ [newest] } else st

/-- The end of a closing (R112): the scanner's last commit takes the record's number and the answer's figures; in a store
that is DEGRADED the answer is settled now; in another the flush of the record's page is forced (R110, R127). -/
def State.settleAnswer (s : State) (u : TokenUse) (handover : Nat) (f : Figures) : State :=
  let s := s.modScanner u.scanner (fun r => { r with lastCommit := r.lastCommit.map (fun c =>
    if c.id = u.id then { c with seq := some handover, figures := some f } else c) })
  if s.store.status = .degraded then s.reportRecord false handover
  else { s with store := s.store.markNewest }

/-- The closing event of a token whose fence is clear (R109 to R112). -/
def State.closeToken (s : State) (k : Nat) (u : TokenUse) (c : CommitField) : State :=
  let e := u.entry
  let one := s.closeAccount e
  let s := one.2
  let reasons := s.dueReasons e c.refuse
  let course := s.claims.course u.id
  let dropped := reasons.any && course == .drop
  let minutes := reportedMinutes (s.lot e).dose
  let two := s.admitReserved (s.handoverBody e c dropped)
  let three := two.2.claimStep e two.1 reasons c.refuse course
  let s := three.2.2.endToken k u
  let s := if c.refuse then s.returnLot e two.1 else s.freeLot e
  let s := s.releaseReserved (2 - one.1 - three.2.1)
  s.settleAnswer u two.1 ⟨minutes, three.1, dropped⟩

/-- Is the fence of an owner clear? -/
def State.fenceClear (s : State) (o : FenceOwner) : Bool :=
  match s.fenceOf o with
  | some f => f.clear
  | none => false

/-- CLOSING_EVENT (R109): taken when the commit fence is clear and the store controller is admitting records. -/
def execClosingEvent (token : Nat) (s : State) : Host.Outcome State Fault Refusal :=
  whenOn s (fun s => match s.token token with
    | none => s
    | some u => match u.commit with
      | none => s
      | some c =>
        if s.fenceClear (.commit token) && s.store.admitting then (s.closeToken token u c).settle else s)

end Sys2Proof.Machine
end

