-- ==== Sys2Proof/Machine/Zones.lean ====
section
/-! DEFINITION. The zone conditioner: readings, doors, defrost, ticks, alarms and notices (spec/02). -/

namespace Sys2Proof.Machine

/-! ## Reading the mailboxes -/

/-- The value of a probe that qualifies (R12, R27). -/
def Node.qualifying (n : Node) : Option Int :=
  match n.box with
  | .probe b => if b.fresh && !b.fault && !b.stale then b.value else none
  | _ => none

/-- The highest of a list of temperatures. -/
def highest : List Int → Option Int
  | [] => none
  | t :: ts => match highest ts with
    | some m => some (max t m)
    | none => some t

/-- The reading of a zone's qualifying probes (R27). -/
def State.probeReading (s : State) (z : Nat) : Option Int :=
  highest ((s.nodesOf .probe z).filterMap (fun a => (s.node a).qualifying))

/-- The door mailbox of an address. -/
def Node.doorBox (n : Node) : Option DoorBox :=
  match n.box with
  | .door b => some b
  | _ => none

/-- The unit mailbox of a zone's enrolled unit controller, with its address. -/
def State.unitBox (s : State) (z : Nat) : Option (Nat × UnitBox) :=
  firstSome (fun a => match (s.node a).box with
    | .unit b => some (a, b)
    | _ => none) (s.nodesOf .unit z)

/-- The addresses of a zone's SILENT probes (R38, R41). R41 gives the list no order; the model's rises. DESIGN CHOICE, log
entry 46. -/
def State.silentProbes (s : State) (z : Nat) : List Nat :=
  (s.nodesOf .probe z).filter (fun a => (s.node a).liveness == .silent)

/-! ## Defrost (R31) -/

/-- The defrost report is taken from the mailbox of the zone's unit (R31). -/
def State.takeReport (s : State) (z : Nat) : Option DefrostReport × State :=
  match s.unitBox z with
  | some (a, b) => match b.report with
    | some r => (some r, s.setNode a { s.node a with box := .unit { b with report := none } })
    | none => (none, s)
  | none => (none, s)

/-- What a taken report does to the defrost state (R31). -/
def defrostAfter (d : Option Nat) : Option DefrostReport → Option Nat
  | none => d
  | some r => if r.start then (match d with
      | some t => some t
      | none => some r.time) else none

/-! ## Doors (R29, R30) -/

/-- The union closes at a time (R30). -/
def Zone.closeUnion (z : Zone) (c : Nat) : Zone :=
  match z.union with
  | none => z
  | some since => { z with union := none, openSeconds := satAdd max32 z.openSeconds (c - max since z.doorCount) }

/-- An address leaves the open door set at a time; the union closes when the set is then empty (R29). -/
def Zone.removeDoor (z : Zone) (a c : Nat) : Zone :=
  let z := { z with openDoors := z.openDoors.filter (· != a) }
  if z.openDoors.isEmpty then z.closeUnion c else z

/-- An address joins the open door set; the union opens when the set was empty (R29). -/
def Zone.addDoor (z : Zone) (a c : Nat) : Zone :=
  let wasEmpty := z.openDoors.isEmpty
  let z := { z with openDoors := insertSorted a z.openDoors }
  if wasEmpty then { z with union := some c, openings := bump16 z.openings } else z

/-- One changed door (R29): its address, its mailbox state and its change time. -/
def Zone.doorChange (z : Zone) (d : Nat × DoorState × Nat) : Zone :=
  match d.2.1 with
  | .opened => if z.openDoors.contains d.1 then z else z.addDoor d.1 d.2.2
  | .closed => if z.openDoors.contains d.1 then z.removeDoor d.1 d.2.2 else z
  | .unknown => z

/-- Insertion into a list ordered by change time, then address. -/
def insertDoor (d : Nat × DoorState × Nat) : List (Nat × DoorState × Nat) → List (Nat × DoorState × Nat)
  | [] => [d]
  | e :: es => if d.2.2 < e.2.2 ∨ (d.2.2 = e.2.2 ∧ d.1 < e.1) then d :: e :: es else e :: insertDoor d es

/-- The zone's doors with CHANGED set, by change time and then address (R29). -/
def State.changedDoors (s : State) (z : Nat) : List (Nat × DoorState × Nat) :=
  ((s.nodesOf .door z).filterMap (fun a => match (s.node a).doorBox with
    | some b => if b.changed then some (a, b.state, b.changeTime.getD 0) else none
    | none => none)).foldr insertDoor []

/-- The open door set, the union and the open seconds are brought up to the tick time (R29, R30). -/
def State.doorsUpTo (s : State) (z t : Nat) (r : Zone) : Zone :=
  let gone := r.openDoors.filter (fun a => !(s.nodesOf .door z).contains a)
  let r := gone.foldl (fun r a => r.removeDoor a t) r
  let r := (s.changedDoors z).foldl Zone.doorChange r
  let added := match r.union with
    | some since => t - max since r.doorCount
    | none => 0
  { r with openSeconds := satAdd max32 r.openSeconds added, doorCount := t }

/-! ## Reading and tick (R27, R28, R32) -/

/-- The zone reading and state (R27). -/
def Zone.read (z : Zone) (reading : Option Int) : Zone :=
  match reading with
  | some v => { z with state := .watched, lastValid := some v, latest := some v }
  | none => { z with
      state := (match z.lastValid with
        | some _ => .blind
        | none => .unseen)
      latest := none }

/-- The kind of the tick and the temperature or penalty it carries (R28). -/
def Zone.tickKind (z : Zone) (penalty : Nat) : TickKind :=
  match z.state, z.latest, z.lastValid with
  | .watched, some v, _ => .watched v
  | .blind, _, some v => .blind (min 960 (v + penalty))
  | _, _, _ => .unseen penalty

/-- The tick of a zone at a sweep end (R32). -/
def Zone.formTick (r : Zone) (z t penalty : Nat) : Tick where
  zone := z
  time := t
  span := min 3600 (t - r.lastTick)
  gap := decide (3600 < t - r.lastTick)
  openSeconds := min r.openSeconds (min 3600 (t - r.lastTick))
  openings := r.openings
  kind := r.tickKind penalty

/-- A tick merged into a pending reading (R33). The sum of the openings stays at 65,535, the greatest value of R44's field.
DESIGN CHOICE, log entry 47. -/
def PendingReading.merge (p : PendingReading) (t : Tick) : PendingReading :=
  { p with tick := { t with
      gap := t.gap || p.tick.gap
      openSeconds := min (p.tick.openSeconds + t.openSeconds) t.span
      openings := satAdd max16 p.tick.openings t.openings } }

/-- The tick of a zone is formed and submitted or held (R32, R33). -/
def State.tickZone (s : State) (z t : Nat) : State :=
  let r := s.zone z
  if t - r.lastTick = 0 then s
  else
    let tick := r.formTick z t s.trunk.settings.blindPenalty
    let emptied := { r with openSeconds := 0, openings := 0 }
    match r.pending with
    | some p =>
      s.setZone z { emptied with
        pending := some (p.merge tick)
        lagged := bump16 r.lagged }
    | none =>
      if s.dose.queue.length < doseQueuePlaces then (s.setZone z emptied).submitTick tick
      else s.setZone z { emptied with pending := some ⟨tick, none⟩, lagged := bump16 r.lagged }

/-! ## Alarms (R36 to R39) -/

/-- TEMP_HIGH and the above-limit since time (R36). -/
def Zone.tempHigh (z : Zone) (t allowance : Nat) : Option Nat × Bool :=
  match z.state, z.latest with
  | .watched, some v =>
    if z.limit < v then
      let since := z.aboveSince.getD t
      let holds := decide (z.delay ≤ t - since)
      let suppressed := match z.defrost with
        | some d => decide (t < addTime d allowance)
        | none => false
      (some since, z.alarms.tempHigh || (holds && !suppressed))
    else (none, false)
  | _, _ => (z.aboveSince, z.alarms.tempHigh)

/-- DOOR_HELD (R37). -/
def Zone.doorHeld (z : Zone) (t limit : Nat) : Bool :=
  match z.union with
  | some since => z.alarms.doorHeld || decide (limit < t - since)
  | none => false

/-- ZONE_BLIND (R38): `lots` says whether the zone's list holds a lot, `sweepStart` when the sweep that ended started. -/
def Zone.zoneBlind (z : Zone) (lots : Bool) (sweepStart : Option Nat) : Bool :=
  match z.state with
  | .watched => false
  | .blind => true
  | .unseen => z.alarms.zoneBlind || (lots && match sweepStart with
    | some t => decide (z.inServiceTime ≤ t)
    | none => false)

/-- UNIT_FAULT (R39) from the fault state of the zone's enrolled unit, where it has one. -/
def Zone.unitFault (z : Zone) : Option FaultState → Bool
  | some .fault => true
  | some .ok => false
  | some .unknown => z.alarms.unitFault
  | none => false

/-- The four alarm kinds after a sweep end, and the above-limit since time (R36 to R39). -/
def State.evalAlarms (s : State) (z t : Nat) : Option Nat × AlarmSet :=
  let r := s.zone z
  let th := r.tempHigh t s.trunk.settings.defrostAllowance
  (th.1,
    { tempHigh := th.2
      doorHeld := r.doorHeld t s.trunk.settings.doorHeldLimit
      zoneBlind := r.zoneBlind (!(s.zoneList z).isEmpty) s.coord.lastStart
      unitFault := r.unitFault ((s.unitBox z).map (fun b => b.2.fault)) })

/-! ## Notices (R40, R41) -/

/-- The ALARM telegram of a zone (R41). -/
def State.alarmBody (s : State) (z t : Nat) : AlarmBody :=
  let r := s.zone z
  { zone := z
    time := t
    epoch := s.trunk.settings.epoch
    unsynced := s.trunk.unsynced
    defrost := r.defrost.isSome
    alarms := r.alarms
    raised := r.raisedSince
    cleared := r.clearedSince
    state := r.state
    latest := r.latest
    silent := if r.alarms.zoneBlind then s.silentProbes z else [] }

/-- An ALARM is sent for a zone at a notice time: the sets are emptied and the pacing starts anew (R40). -/
def State.sendAlarm (s : State) (z t : Nat) : State :=
  let body := s.alarmBody z t
  let s := s.setZone z { s.zone z with
    lastNotice := some t
    raisedSince := .none
    clearedSince := .none
    noticePending := false
    pacing := none }
  s.offer (.alarm body)

/-- The notice decision after an event that raised or cleared kinds of a zone (R40). -/
def State.decideNotice (s : State) (z t : Nat) : State :=
  let r := s.zone z
  let due := match r.lastNotice with
    | none => true
    | some last => decide (s.trunk.settings.pacingInterval ≤ t - last)
  if due then s.sendAlarm z t
  else s.setZone z { r with
    noticePending := true
    pacing := (match r.pacing with
      | some p => some p
      | none => some (addTime (r.lastNotice.getD 0) s.trunk.settings.pacingInterval)) }

/-- `n` wake requests from the ALARM source (R36 to R39, R190). -/
def State.alarmWakes : Nat → State → State
  | 0, s => s
  | n + 1, s => State.alarmWakes n (s.wake .alarm)

/-- The alarm set of a zone becomes another: raises and clears are recorded, each raise is a wake request, and a notice
is decided when anything changed (R36 to R40). -/
def State.setAlarms (s : State) (z t : Nat) (alarms : AlarmSet) : State :=
  let r := s.zone z
  let raised := alarms.without r.alarms
  let cleared := r.alarms.without alarms
  let s := s.setZone z { r with
    alarms := alarms
    raisedSince := r.raisedSince.union raised
    clearedSince := r.clearedSince.union cleared }
  let s := State.alarmWakes raised.size s
  if raised.any || cleared.any then s.decideNotice z t else s

/-! ## The sweep end (R26) -/

/-- The sweep end at one zone (R26). -/
def State.zoneSweepEnd (s : State) (z : Nat) : State :=
  let t := s.time.now
  let taken := s.takeReport z
  let s := taken.2
  if (s.zone z).inService then
    let r := s.zone z
    let r := { r with defrost := defrostAfter r.defrost taken.1 }
    let r := s.doorsUpTo z t r
    let s := s.setZone z (r.read (s.probeReading z))
    let decided := s.evalAlarms z t
    let s := s.setZone z { s.zone z with aboveSince := decided.1 }
    let s := s.setAlarms z t decided.2
    s.tickZone z t
  else s

/-- The zones one by one in ascending order (R26). -/
def State.conditionZones (s : State) : State := zoneNumbers.foldl State.zoneSweepEnd s

end Sys2Proof.Machine
end

