-- ==== Sys2Proof/Machine/Field.lean ====
section
/-! DEFINITION. The sweep coordinator: answers from field nodes, poll exchanges, sweeps, scanner answers, LOAD_NODE and the
field restart (spec/01). -/

namespace Sys2Proof.Machine

/-! ## What a field answer says (R9, R202) -/

/-- The kind codes of the field line (R201). -/
def kindIdle : Byte := 2
def kindSample : Byte := 3
def kindDoor : Byte := 4
def kindUnit : Byte := 5
def kindHold : Byte := 6
def kindRelease : Byte := 7
def kindCommit : Byte := 8

/-- A field answer with its body taken apart, or bytes that fit no kind (R202). -/
inductive FieldAnswer where
  | idle
  | sample (seq : Byte) (raw : BitVec 16) (status : Byte)
  | door (state age : Byte)
  | unit (defrost state : Byte)
  | hold (id : ConsId)
  | release (id : ConsId)
  | commit (id : ConsId) (recipient : Word32) (outcome reason : Byte)
  | other
  deriving DecidableEq, Repr

/-- A DOOR body whose state byte is above 1, and a UNIT body with a value outside its encoding, fit no answer (R202). -/
def FieldAnswer.encodingOk : FieldAnswer → Bool
  | .door state _ => decide (state.toNat ≤ 1)
  | .unit defrost state => decide (defrost.toNat ≤ 2) && decide (state.toNat ≤ 1)
  | .other => false
  | _ => true

/-- The consignment id at the front of a body. -/
def bodyId (body : List Byte) : ConsId := BitVec.ofNat 40 (numAt body 0 5)

/-- The answer that a kind code and a body spell (R201, R202). -/
def fieldAnswer (kind : Byte) (body : List Byte) : FieldAnswer :=
  if kind = kindIdle ∧ body.length = 0 then .idle
  else if kind = kindSample ∧ body.length = 4 then
    .sample (byteAt body 0) (BitVec.ofNat 16 (numAt body 1 2)) (byteAt body 3)
  else if kind = kindDoor ∧ body.length = 2 then .door (byteAt body 0) (byteAt body 1)
  else if kind = kindUnit ∧ body.length = 2 then .unit (byteAt body 0) (byteAt body 1)
  else if kind = kindHold ∧ body.length = 5 then .hold (bodyId body)
  else if kind = kindRelease ∧ body.length = 5 then .release (bodyId body)
  else if kind = kindCommit ∧ body.length = 11 then
    .commit (bodyId body) (BitVec.ofNat 32 (numAt body 5 4)) (byteAt body 9) (byteAt body 10)
  else .other

/-- Is the answer's kind accepted for the role (R9)? -/
def Role.accepts (r : Role) (a : FieldAnswer) : Bool :=
  match a with
  | .idle => true
  | .sample _ _ _ => r == .probe
  | .door _ _ => r == .door
  | .unit _ _ => r == .unit
  | .hold _ => r == .scanner
  | .release _ => r == .scanner
  | .commit _ _ _ _ => r == .scanner
  | .other => false

/-- Is the answer no misfit (R9)? -/
def Role.fits (r : Role) (a : FieldAnswer) : Bool := r.accepts a && a.encodingOk

/-! ## Intakes (R11 to R16, R19) -/

/-- A FIELD_COPY is made for a node whose forward flag is yes (R19). -/
def State.copyField (s : State) (src : Nat) (forward : Bool) (kind : Byte) (body : List Byte) : State :=
  if forward then s.offer (.fieldCopy src kind s.time.now body) else s

/-- The lost count after a sample (R12). -/
def lostAfter (b : ProbeBox) (seq : Nat) : Nat :=
  match b.lastSeq with
  | some last => if last = seq then b.lost else satAdd max16 b.lost (((seq : Int) - last - 1) % 256).toNat
  | none => b.lost

/-- SAMPLE intake into a probe mailbox (R12). -/
def ProbeBox.take (b : ProbeBox) (offset : Int) (seq : Nat) (raw : Int) (ok : Bool) : ProbeBox :=
  let counted := { b with lost := lostAfter b seq, lastSeq := some seq }
  if b.lastSeq = some seq then { counted with stale := true }
  else if !ok || !tempOk raw then { counted with fault := true }
  else { counted with value := some (clampTemp (raw + offset)), fresh := true }

/-- A SAMPLE is taken into its node's mailbox (R12). -/
def State.takeSample (s : State) (src : Nat) (e : NodeEntry) (seq : Byte) (raw : BitVec 16) (status : Byte) : State :=
  match (s.node src).box with
  | .probe b => s.setNode src { s.node src with box := .probe (b.take e.offset seq.toNat raw.toInt (status == 0)) }
  | _ => s

/-- The change time of a door (R14): the poll time less the age, not before 0, the previous change time, or the zone's last
tick time. -/
def doorTime (now age : Nat) (previous : Option Nat) (lastTick : Nat) : Nat :=
  max (max (now - age) (previous.getD 0)) lastTick

/-- DOOR intake into a door mailbox (R14). -/
def DoorBox.take (b : DoorBox) (state : DoorState) (now age lastTick : Nat) : DoorBox :=
  if b.state = state then b else ⟨state, some (doorTime now age b.changeTime lastTick), true⟩

/-- A DOOR answer is taken; an open door is a wake request (R14). -/
def State.takeDoor (s : State) (src : Nat) (e : NodeEntry) (state age : Byte) : State :=
  let opened := state == 1
  let ds : DoorState := if opened then .opened else .closed
  let s := match (s.node src).box with
    | .door b => s.setNode src { s.node src with
        box := .door (b.take ds s.time.now age.toNat (s.zone (e.zone.getD 0)).lastTick) }
    | _ => s
  if opened then s.wake .door else s

/-- UNIT intake into a unit mailbox (R15). -/
def UnitBox.take (b : UnitBox) (defrost state now : Nat) : UnitBox :=
  { fault := if state = 1 then .fault else .ok
    report := match defrost with
      | 1 => some ⟨true, now⟩
      | 2 => some ⟨false, now⟩
      | _ => b.report }

/-- A UNIT answer is taken (R15). -/
def State.takeUnit (s : State) (src : Nat) (defrost state : Byte) : State :=
  match (s.node src).box with
  | .unit b => s.setNode src { s.node src with box := .unit (b.take defrost.toNat state.toNat s.time.now) }
  | _ => s

/-- A scanner request is passed on, or dropped when one is outstanding (R16). -/
def State.scannerRequest (s : State) (src : Nat) (f : State → State) : State :=
  match (s.node src).outstanding with
  | .clear => f (s.setNode src { s.node src with outstanding := .awaited })
  | _ => { s with coord := { s.coord with overruns := bump16 s.coord.overruns } }

/-- The body of a SAMPLE as received (R202). -/
def sampleBody (seq : Byte) (raw : BitVec 16) (status : Byte) : List Byte := seq :: leBytes 2 raw.toNat ++ [status]

/-- An answer of an accepted kind goes to its intake, and is copied where the node forwards (R9, R19). -/
def State.intake (s : State) (src : Nat) (e : NodeEntry) (a : FieldAnswer) : State :=
  match a with
  | .sample seq raw status =>
    (s.takeSample src e seq raw status).copyField src e.forward kindSample (sampleBody seq raw status)
  | .door state age => (s.takeDoor src e state age).copyField src e.forward kindDoor [state, age]
  | .unit defrost state => (s.takeUnit src defrost state).copyField src e.forward kindUnit [defrost, state]
  | .hold id => s.scannerRequest src (fun s => s.takeHold src id)
  | .release id => s.scannerRequest src (fun s => s.takeRelease src id)
  | .commit id recipient outcome reason =>
    s.scannerRequest src (fun s => s.takeCommit src id recipient outcome.toNat reason.toNat)
  | _ => s

/-! ## The end of an exchange and of a sweep (R4) -/

/-- The sweep ends: the phase becomes IDLE, the zones are conditioned, and an owed sweep starts, or one that a wake request
of an alarm made due at once (R2 to R4). -/
def State.endSweep (s : State) : State :=
  let before := s.time.mode
  let s := State.conditionZones { s with coord := { s.coord with phase := .idle } }
  if s.coord.owed then State.startSweep { s with coord := { s.coord with owed := false } }
  else State.grantLine (State.expireAfter before s)

/-- The open poll exchange of an address ends: the line is free, the next address advances, and the exchange of address
31 ends the sweep (R4). The next address stays at 31 then until a sweep starts. DESIGN CHOICE, log entry 32. -/
def State.endExchange (s : State) (a : Nat) : State :=
  let s := { s with coord := { s.coord with line := .free } }
  if 31 ≤ a then s.endSweep else State.grantLine { s with coord := { s.coord with nextAddress := a + 1 } }

/-! ## Answers taken (R1, R8 to R10) -/

/-- A field telegram is dropped (R1). -/
def State.dropField (s : State) : State := { s with coord := { s.coord with linkErrors := bump16 s.coord.linkErrors } }

/-- An answer makes its node PRESENT, with a miss count of 0 (R8). -/
def State.present (s : State) (src : Nat) : State := s.setNode src { s.node src with liveness := .present, miss := 0 }

/-- A stranger (R10). -/
def State.stranger (s : State) (src : Nat) : State :=
  { s with coord := { s.coord with
      strangers := insertSorted src s.coord.strangers
      strangerCount := bump16 s.coord.strangerCount } }

/-- A misfit (R9). -/
def State.misfit (s : State) : State := { s with coord := { s.coord with misfits := bump16 s.coord.misfits } }

/-- An answer is taken according to the entry of its address as that stands (R1, R8 to R10). -/
def State.classify (s : State) (src : Nat) (a : FieldAnswer) : State :=
  match (s.node src).entry with
  | none => s.stranger src
  | some e =>
    let s := s.present src
    if e.role.fits a then s.intake src e a else s.misfit

/-- A field telegram arrives: the answer of the open exchange ends it, any other is dropped (R1). -/
def State.fieldArrival (s : State) (src : Nat) (a : FieldAnswer) : State :=
  if s.coord.line = .poll src then (s.classify src a).endExchange src else s.dropField

/-- SAMPLE (R12). -/
def execSample (src seq : Byte) (raw : BitVec 16) (status : Byte) (s : State) : Host.Outcome State Fault Refusal :=
  whenOn s (fun s => s.fieldArrival src.toNat (.sample seq raw status))

/-- DOOR (R14). -/
def execDoor (src state age : Byte) (s : State) : Host.Outcome State Fault Refusal :=
  whenOn s (fun s => s.fieldArrival src.toNat (.door state age))

/-- UNIT (R15). -/
def execUnit (src defrost state : Byte) (s : State) : Host.Outcome State Fault Refusal :=
  whenOn s (fun s => s.fieldArrival src.toNat (.unit defrost state))

/-- IDLE (R9). -/
def execIdle (src : Byte) (s : State) : Host.Outcome State Fault Refusal :=
  whenOn s (fun s => s.fieldArrival src.toNat .idle)

/-- MISFIT (R9): what the kind and body spell is taken as the address's role accepts it. -/
def execMisfit (src kind : Byte) (body : List Byte) (s : State) : Host.Outcome State Fault Refusal :=
  whenOn s (fun s => s.fieldArrival src.toNat (fieldAnswer kind body))

/-- STRANGER (R10): what the kind and body spell is taken as the entry of the address says. -/
def execStranger (src kind : Byte) (body : List Byte) (s : State) : Host.Outcome State Fault Refusal :=
  whenOn s (fun s => s.fieldArrival src.toNat (fieldAnswer kind body))

/-- HOLD (R99). -/
def execHold (src : Byte) (id : ConsId) (s : State) : Host.Outcome State Fault Refusal :=
  whenOn s (fun s => s.fieldArrival src.toNat (.hold id))

/-- RELEASE (R101). -/
def execRelease (src : Byte) (id : ConsId) (s : State) : Host.Outcome State Fault Refusal :=
  whenOn s (fun s => s.fieldArrival src.toNat (.release id))

/-- COMMIT (R104, R105). -/
def execCommit (src : Byte) (id : ConsId) (recipient : Word32) (outcome reason : Byte) (s : State) :
    Host.Outcome State Fault Refusal :=
  whenOn s (fun s => s.fieldArrival src.toNat (.commit id recipient outcome reason))

/-- FIELD_TELEGRAM_DROPPED (R1). -/
def execFieldTelegramDropped (s : State) : Host.Outcome State Fault Refusal := whenOn s State.dropField

/-! ## Misses, sweeps and sent answers (R1, R2, R8, R18) -/

/-- A miss at an address (R8). -/
def Node.missed (n : Node) (limit : Nat) : Node :=
  match n.entry with
  | none => n
  | some _ =>
    let miss := satAdd 15 n.miss 1
    { n with miss := miss, liveness := if limit ≤ miss then .silent else n.liveness }

/-- ANSWER_WINDOW_CLOSE (R1): the window of the open exchange closes with a miss. -/
def execAnswerWindowClose (s : State) : Host.Outcome State Fault Refusal :=
  whenOn s (fun s => match s.coord.line with
    | .poll a => (s.setNode a ((s.node a).missed s.trunk.settings.missLimit)).endExchange a
    | _ => s)

/-- The sweep timer expires (R2). -/
def State.sweepExpiry (s : State) (expiry : Nat) : State :=
  match s.coord.phase with
  | .idle => s.startSweep
  | .sweeping => { s with coord := { s.coord with
      owed := true
      timer := some (addTime expiry (s.period s.time.mode)) } }

/-- SWEEP_TIMER_EXPIRY (R2): taken when the armed time is reached. -/
def execSweepTimerExpiry (s : State) : Host.Outcome State Fault Refusal :=
  whenOn s (fun s => match s.coord.timer with
    | some t => if t ≤ s.time.now then s.sweepExpiry t else s
    | none => s)

/-- SCAN_ANSWER_SENT (R18): the outstanding request is cleared and the line is granted anew. -/
def execScanAnswerSent (s : State) : Host.Outcome State Fault Refusal :=
  whenOn s (fun s => match s.coord.line with
    | .sending a _ =>
      let s := s.setNode a { s.node a with outstanding := .clear }
      State.grantLine { s with coord := { s.coord with line := .free } }
    | _ => s)

/-- PACING_EXPIRY (R40): an ALARM is sent at the pacing expiry of a zone with a notice pending. -/
def execPacingExpiry (zone : Nat) (s : State) : Host.Outcome State Fault Refusal :=
  whenOn s (fun s => match (s.zone zone).pacing with
    | some t => if (s.zone zone).noticePending && decide (t ≤ s.time.now) then s.sendAlarm zone t else s
    | none => s)

/-! ## LOAD_NODE (R6, R7) -/

/-- How many nodes of a role a zone may have (R5). -/
def Role.limit : Role → Nat
  | .probe => 3
  | .door => 2
  | .unit => 1
  | .scanner => 31

/-- The empty mailbox of a role (R7). -/
def Role.emptyBox : Role → Mailbox
  | .probe => .probe .empty
  | .door => .door .empty
  | .unit => .unit .empty
  | .scanner => .none

/-- Has the zone as many other nodes of the role as it may have (R6 check 4)? -/
def State.roleFull (s : State) (role : Role) (z a : Nat) : Bool :=
  decide (role.limit ≤ ((s.nodesOf role z).filter (· != a)).length)

/-- Does the address's scanner record name a token whose lot is CLOSING (R6 check 5)? -/
def State.scannerClosing (s : State) (a : Nat) : Bool :=
  match s.currentToken a with
  | some k => s.tokenLotState k == .closing
  | none => false

/-- The entry that a LOAD_NODE gives, with whether its offset was clamped (R6). -/
def nodeEntry (role : Role) (zone : Nat) (offset : Int) (forward : Bool) : NodeEntry × Bool :=
  let z := if role = .scanner then none else some zone
  (⟨role, z, clampInt (-32) 31 offset, forward⟩, clampInt (-32) 31 offset != offset)

/-- The first failing check of LOAD_NODE (R6). -/
def State.loadNodeRefusal (s : State) (a : Nat) (enrolled : Bool) (role zone : Nat) : Option Code :=
  if a < 1 ∨ 31 < a then some .badAddress
  else if enrolled then
    match roleOf role with
    | none => some .badRole
    | some r =>
      if r ≠ .scanner ∧ (zone < 1 ∨ 8 < zone) then some .badZone
      else if r ≠ .scanner ∧ s.roleFull r zone a then some .zoneFull
      else if s.scannerClosing a then some .busy
      else none
  else if s.scannerClosing a then some .busy
  else none

/-- The hold of a removed scanner is released without an answer (R7, R119). -/
def State.releaseFor (s : State) (a : Nat) : State :=
  match s.currentToken a with
  | some k => s.freeHold k
  | none => s

/-- The entry is replaced, with all that is kept beside it (R7). -/
def State.replaceNode (s : State) (a : Nat) (entry : Option NodeEntry) : State :=
  let s := s.releaseFor a
  let s := { s with coord := { s.coord with
    answers := s.coord.answers.filter (fun p => p.1 != a)
    strangers := s.coord.strangers.filter (· != a) } }
  s.setNode a
    { entry := entry
      liveness := .unknown
      miss := 0
      box := match entry with
        | some e => e.role.emptyBox
        | none => .none
      scanner := match entry with
        | some e => if e.role = .scanner then some .empty else none
        | none => none
      outstanding := .clear }

/-- The fields of an entry in the order of R5, as LOAD_NODE returns them and STATUS reports them (R6): enrolled, and for an
enrolled one role, zone, offset, forward. -/
def entryVals : Option NodeEntry → List Val
  | none => [.flag false]
  | some e => [.flag true, .num 1 e.role.code, .num 1 (e.zone.getD 0), .num 1 (signedNat 8 e.offset), .flag e.forward]

/-- LOAD_NODE on the part (R6, R7). -/
def State.loadNode (s : State) (tag : Byte) (a : Nat) (enrolled : Bool) (role zone : Nat) (offset : Int) (forward : Bool) : State :=
  match s.loadNodeRefusal a enrolled role zone with
  | some code => s.answer tag 34 code []
  | none =>
    if enrolled then
      let e := nodeEntry ((roleOf role).getD .probe) zone offset forward
      (s.replaceNode a (some e.1)).answer tag 34 (if e.2 then .clamped else .ok) (entryVals (some e.1))
    else (s.replaceNode a none).answer tag 34 .ok (entryVals none)

/-- LOAD_NODE (R6). -/
def execLoadNode (tag address enrolled role zone offset forward : Byte) (s : State) : Host.Outcome State Fault Refusal :=
  whenOn s (fun s => s.loadNode tag address.toNat (yes enrolled) role.toNat zone.toNat offset.toInt (yes forward))

/-! ## Restarts of the coordinator (R21, R22) -/

/-- A mailbox emptied by a restart: a probe keeps its lost count (R11). -/
def Mailbox.emptied : Mailbox → Mailbox
  | .none => .none
  | .probe b => .probe { ProbeBox.empty with lost := b.lost }
  | .door _ => .door .empty
  | .unit _ => .unit .empty

/-- The coordinator's working state is reset and a new sweep starts; an open poll exchange is abandoned (R21, R22), and a
SCAN_ANSWER that is being sent is completed: R21 says so of a warm restart, and for a field restart it is DEDUCED, log entry
40. -/
def State.restartField (s : State) : State :=
  State.startSweep { s with coord := { s.coord with
    nodes := tabMap (fun n => { n with liveness := .unknown, miss := 0, box := n.box.emptied, outstanding := .clear }) s.coord.nodes
    line := (match s.coord.line with
      | .sending a r => .sending a r
      | _ => .free)
    answers := []
    phase := .idle
    owed := false } }

/-- A scanner record after a warm restart: no token, no expired consignment (R21, R117). -/
def Node.warm (n : Node) : Node :=
  { n with scanner := n.scanner.map (fun r => { r with token := none, lastExpired := none }) }

end Sys2Proof.Machine
end

