-- ==== Sys2Proof/WellFormed.lean ====
section
/-! DEFINITION. Which commands are well-formed: the range of each operand that its type leaves wider than the spec does.
A command that is not well-formed still has a meaning; well-formedness says which commands a sender can give. -/

namespace Sys2Proof

/-- A field address that a node can send from: 1..31 (R5). -/
def fieldAddressOk (src : Byte) : Bool := 1 ≤ src.toNat && src.toNat ≤ 31

/-- A telegram body holds at most 48 bytes (R199). -/
def bodyOk (body : List Byte) : Bool := body.length ≤ 48

/-- The sixteen request kinds have the codes 32..47 (R201). -/
def isRequestKind (kind : Byte) : Bool := 32 ≤ kind.toNat && kind.toNat ≤ 47

/-- Is the command one that a sender can give? -/
def Instr.wf : Instr → Bool
  | .sample src _ _ _ => fieldAddressOk src
  | .door src state _ => fieldAddressOk src && state.toNat ≤ 1
  | .unit src defrost state => fieldAddressOk src && defrost.toNat ≤ 2 && state.toNat ≤ 1
  | .idle src => fieldAddressOk src
  | .misfit src _ body => fieldAddressOk src && bodyOk body
  | .stranger src _ body => fieldAddressOk src && bodyOk body
  | .fieldTelegramDropped => true
  | .answerWindowClose => true
  | .hold src _ => fieldAddressOk src
  | .release src _ => fieldAddressOk src
  | .commit src _ _ _ _ => fieldAddressOk src
  | .sweepTimerExpiry => true
  | .scanAnswerSent => true
  | .pacingExpiry zone => 1 ≤ zone && zone ≤ 8
  | .itemApplication => true
  | .closingEvent token => token < 4
  | .holdExpiry token => token < 4
  | .set _ _ _ => true
  | .get _ _ => true
  | .identify _ => true
  | .status _ _ _ => true
  | .pause _ _ => true
  | .pauseExpiry => true
  | .restartWarm _ form => form.toNat != 2
  | .restartField _ form => form.toNat == 2
  | .loadNode _ _ _ _ _ _ _ => true
  | .loadZone _ _ _ _ _ => true
  | .loadProfile _ _ _ _ _ _ _ _ => true
  | .declare _ _ _ _ => true
  | .move _ _ _ => true
  | .moveEvent entry => entry < 64
  | .lotQuery _ _ _ => true
  | .fetch _ _ => true
  | .raiseById _ _ => true
  | .raiseByRecord _ _ => true
  | .claimRead _ _ _ _ => true
  | .verdict _ _ _ => true
  | .inboundTelegramDropped => true
  | .badKind _ kind => !isRequestKind kind
  | .badLength _ kind => isRequestKind kind
  | .telegramSent => true
  | .flushTimerExpiry => true
  | .pageProgram _ => true
  | .carryRead => true
  | .carryCopy => true
  | .erase _ => true
  | .fetchRead => true
  | .rebuildRead => true
  | .locateEnd fails => fails.all (· < 64)
  | .partSecondsStep => true
  | .dip => true
  | .retentionLoss => true
  | .vddRise => true
  | .retentionSupplyLow _ => true

end Sys2Proof
end

