-- ==== Sys2Proof/Decode.lean ====
section
/-! DEFINITION. From the lines to commands. No row of the table gives bits, so no word spells a command. What the two lines
carry are Coldway frames (R199): a trunk frame is judged by R167 and R168 and becomes a command by R204, and a field frame
by R1 and R202. Which row a field frame falls under is decided by the part as it stands. -/

namespace Sys2Proof

open Sys2Proof.Machine

/-- The command that a word spells by the table's bits: the table gives none (log entry 11). -/
def decodeTableWord (nbits w : Nat) : Option Instr :=
  match nbits, w with
  | _, _ => none

/-! ## Trunk frames (R167, R168, R204) -/

/-- A 16-bit field of a body. -/
def half (body : List Byte) (at_ : Nat) : BitVec 16 := BitVec.ofNat 16 (numAt body at_ 2)

/-- A 32-bit field of a body. -/
def whole (body : List Byte) (at_ : Nat) : Word32 := BitVec.ofNat 32 (numAt body at_ 4)

/-- A consignment id in a body. -/
def idAt (body : List Byte) (at_ : Nat) : ConsId := BitVec.ofNat 40 (numAt body at_ 5)

/-- The entry of a DECLARE body (R204). -/
def entryOf (body : List Byte) : DeclEntry where
  zone := byteAt body 2
  id := idAt body 3
  profile := byteAt body 8
  quantity := half body 9
  dose := whole body 11
  peak := half body 15
  temp := half body 17
  melted := bitAt (byteAt body 19).toNat 0
  provenance :=
    if bitAt (byteAt body 19).toNat 1 then some ⟨whole body 20, whole body 24, whole body 28⟩ else none

/-- The command of a request kind and a body; none when the length fits no form (R168, R204). -/
def requestOf (tag : Byte) (kind : Nat) (body : List Byte) : Option Instr :=
  let b := byteAt body
  match kind, body.length with
  | 32, 5 => some (.set tag (b 0) (whole body 1))
  | 33, 1 => some (.get tag (b 0))
  | 34, 6 => some (.loadNode tag (b 0) (b 1) (b 2) (b 3) (b 4) (b 5))
  | 35, 6 => some (.loadZone tag (b 0) (b 1) (half body 2) (half body 4))
  | 36, 12 => some (.loadProfile tag (b 0) (half body 1) (half body 3) (b 5) (half body 6) (half body 8) (half body 10))
  | 37, 32 => some (.declare tag (b 0) (b 1) (entryOf body))
  | 38, 6 => some (.move tag (idAt body 0) (b 5))
  | 39, 6 => some (.lotQuery tag (.byId (idAt body 0)) (b 5))
  | 39, 3 => some (.lotQuery tag (.byPosition (b 0) (b 1)) (b 2))
  | 40, 4 => some (.fetch tag (whole body 0))
  | 41, 4 => some (.claimRead tag (half body 0) (b 2) (b 3))
  | 42, 5 => some (.raiseById tag (idAt body 0))
  | 42, 4 => some (.raiseByRecord tag (whole body 0))
  | 43, 3 => some (.verdict tag (half body 0) (b 2))
  | 44, 2 => some (.pause tag (half body 0))
  | 45, 1 => if b 0 = 2 then some (.restartField tag (b 0)) else some (.restartWarm tag (b 0))
  | 46, 0 => some (.identify tag)
  | 47, 2 => some (.status tag (b 0) (b 1))
  | _, _ => none

/-- The bytes 2 to 31 of a DECLARE body (R204). -/
def entryBytes (d : DeclEntry) : List Byte :=
  d.zone :: leBytes 5 d.id.toNat ++ [d.profile] ++ leBytes 2 d.quantity.toNat ++ leBytes 4 d.dose.toNat
    ++ leBytes 2 d.peak.toNat ++ leBytes 2 d.temp.toNat
    ++ leBytes 1 (bitOf d.melted + 2 * bitOf d.provenance.isSome)
    ++ (match d.provenance with
      | some p => leBytes 4 p.partCode.toNat ++ leBytes 4 p.recordSeq.toNat ++ leBytes 4 p.chain.toNat
      | none => padTo 12 [])

/-- The tag, kind code and body of a management request (R169, R201, R204); none for a command that is no request. -/
def requestBody : Instr → Option (Byte × Byte × List Byte)
  | .set tag n v => some (tag, 32, n :: leBytes 4 v.toNat)
  | .get tag n => some (tag, 33, [n])
  | .loadNode tag a enrolled role zone offset forward => some (tag, 34, [a, enrolled, role, zone, offset, forward])
  | .loadZone tag z service limit delay => some (tag, 35, [z, service] ++ leBytes 2 limit.toNat ++ leBytes 2 delay.toNat)
  | .loadProfile tag n lower upper weight discount meltHold claimDose =>
    some (tag, 36, n :: leBytes 2 lower.toNat ++ leBytes 2 upper.toNat ++ [weight] ++ leBytes 2 discount.toNat
      ++ leBytes 2 meltHold.toNat ++ leBytes 2 claimDose.toNat)
  | .declare tag part count d => some (tag, 37, [part, count] ++ entryBytes d)
  | .move tag id dest => some (tag, 38, leBytes 5 id.toNat ++ [dest])
  | .lotQuery tag (.byId id) sec => some (tag, 39, leBytes 5 id.toNat ++ [sec])
  | .lotQuery tag (.byPosition zone position) sec => some (tag, 39, [zone, position, sec])
  | .fetch tag seq => some (tag, 40, leBytes 4 seq.toNat)
  | .claimRead tag number take sec => some (tag, 41, leBytes 2 number.toNat ++ [take, sec])
  | .raiseById tag id => some (tag, 42, leBytes 5 id.toNat)
  | .raiseByRecord tag seq => some (tag, 42, leBytes 4 seq.toNat)
  | .verdict tag number verdict => some (tag, 43, leBytes 2 number.toNat ++ [verdict])
  | .pause tag duration => some (tag, 44, leBytes 2 duration.toNat)
  | .restartWarm tag form => some (tag, 45, [form])
  | .restartField tag form => some (tag, 45, [form])
  | .identify tag => some (tag, 46, [])
  | .status tag sec part => some (tag, 47, [sec, part])
  | _ => none

/-- The command of a trunk frame (R167, R168); `line` is what follows a delimiter up to the frame's end. -/
def decodeTrunk (line : List Byte) : Instr :=
  match frameOf line with
  | none => .inboundTelegramDropped
  | some f =>
    if f.dest ≠ 0 ∨ f.source ≠ 32 then .inboundTelegramDropped
    else if !isRequestKind f.kind then .badKind f.tag f.kind
    else (requestOf f.tag f.kind.toNat f.body).getD (.badLength f.tag f.kind)

/-- The commands of the bytes received on the trunk line (R167, R199). -/
def trunkCommands (bytes : List Byte) : List Instr := (framesIn none bytes).map decodeTrunk

/-! ## Field frames (R1, R202) -/

/-- The command of a field frame: a frame that is dropped or not for the part falls under R1, and the others are taken by
what they spell and by whether their source is enrolled and accepts them. -/
def decodeField (s : State) (line : List Byte) : Instr :=
  match frameOf line with
  | none => .fieldTelegramDropped
  | some f =>
    if f.dest ≠ 0 then .fieldTelegramDropped
    else match (s.node f.source.toNat).entry with
      | none => .stranger f.source f.kind f.body
      | some e =>
        let a := fieldAnswer f.kind f.body
        if e.role.fits a then
          match a with
          | .idle => .idle f.source
          | .sample seq raw status => .sample f.source seq raw status
          | .door state age => .door f.source state age
          | .unit defrost state => .unit f.source defrost state
          | .hold id => .hold f.source id
          | .release id => .release f.source id
          | .commit id recipient outcome reason => .commit f.source id recipient outcome reason
          | .other => .misfit f.source f.kind f.body
        else .misfit f.source f.kind f.body

end Sys2Proof
end

