-- ==== Sys2Proof/Machine/Lots.lean ====
section
/-! DEFINITION. The lot pool and what the partner asks of it: LOAD_ZONE, LOAD_PROFILE, DECLARE, MOVE and its event,
LOT_QUERY (spec/02, spec/04). -/

namespace Sys2Proof.Machine

/-! ## LOAD_ZONE (R24, R25) -/

/-- Does a lot stand in the way of taking a zone OUT (R24 check 2)? -/
def State.zoneOccupied (s : State) (z : Nat) : Bool :=
  !(s.zoneList z).isEmpty || entryNumbers.any (fun e => match (s.lot e).move with
    | some m => (s.lot e).state == .moving && m.dest == z
    | none => false)

/-- The enrolled doors of a zone whose mailbox state is OPEN. -/
def State.openDoorsOf (s : State) (z : Nat) : List Nat :=
  (s.nodesOf .door z).filter (fun a => match (s.node a).doorBox with
    | some b => b.state == .opened
    | none => false)

/-- A zone goes from OUT to IN (R25). -/
def Zone.toIn (r : Zone) (now : Nat) (doors : List Nat) : Zone :=
  { r with
    inService := true
    state := .unseen
    lastValid := none
    latest := none
    inServiceTime := now
    lastTick := now
    doorCount := now
    openSeconds := 0
    openings := 0
    defrost := none
    openDoors := doors
    union := if doors.isEmpty then none else some now }

/-- A zone goes from IN to OUT, but for its alarms (R25). -/
def Zone.toOut (r : Zone) : Zone :=
  { r with
    inService := false
    pending := none
    aboveSince := none
    openDoors := []
    union := none
    openSeconds := 0
    openings := 0
    defrost := none }

/-- The service of a zone after its limit and delay are written (R25). A zone that goes OUT has its fields emptied first and
its kinds cleared then, so that an ALARM sent for the clears says defrost OFF. DESIGN CHOICE, log entry 33. -/
def State.serveZone (s : State) (z : Nat) (service : Bool) : State :=
  let r := s.zone z
  match r.inService, service with
  | false, true => s.setZone z (r.toIn s.time.now (s.openDoorsOf z))
  | true, false => State.setAlarms (s.setZone z r.toOut) z s.time.now .none
  | _, _ => s

/-- LOAD_ZONE on the part (R24, R25). An ALARM of a zone that goes OUT joins the outbound queue before the ANSWER. DESIGN
CHOICE, log entry 33. -/
def State.loadZone (s : State) (tag : Byte) (z : Nat) (service : Bool) (limit : Int) (delay : Nat) : State :=
  if z < 1 ∨ 8 < z then s.answer tag 35 .badZone []
  else if !service && s.zoneOccupied z then s.answer tag 35 .notEmpty []
  else
    let limit' := clampTemp limit
    let delay' := min 3600 delay
    let s := s.setZone z { s.zone z with limit := limit', delay := delay' }
    let s := s.serveZone z service
    s.answer tag 35 (if limit' = limit ∧ delay' = delay then .ok else .clamped)
      [.num 1 (bitOf service), .temp (some limit'), .num 2 delay', .num 1 (s.zone z).state.code]

/-- LOAD_ZONE (R24). -/
def execLoadZone (tag zone service : Byte) (limit delay : BitVec 16) (s : State) : Host.Outcome State Fault Refusal :=
  whenOn s (fun s => s.loadZone tag zone.toNat (yes service) limit.toInt delay.toNat)

/-! ## LOAD_PROFILE (R73) -/

/-- The profile that a LOAD_PROFILE gives, after clamping (R73 step 2). -/
def clampProfile (lower upper : Int) (weight discount meltHold claimDose : Nat) : Profile where
  loaded := true
  lower := clampTemp lower
  upper := clampTemp upper
  weight := clampNat 1 4 weight
  discount := min 960 discount
  meltHold := min 3600 meltHold
  claimDose := claimDose

/-- The values of a profile as LOAD_PROFILE returns them (R73). -/
def Profile.vals (p : Profile) : List Val :=
  [.temp (some p.lower), .temp (some p.upper), .num 1 p.weight, .num 2 p.discount, .num 2 p.meltHold, .num 2 p.claimDose]

/-- LOAD_PROFILE on the part (R73). -/
def State.loadProfile (s : State) (tag : Byte) (n : Nat) (lower upper : Int) (weight discount meltHold claimDose : Nat) : State :=
  let p := clampProfile lower upper weight discount meltHold claimDose
  if 7 < n then s.answer tag 36 .badProfile []
  else if p.upper ≤ p.lower then s.answer tag 36 .badProfile []
  else
    let same := p == ⟨true, lower, upper, weight, discount, meltHold, claimDose⟩
    State.answer { s with pool := { s.pool with profiles := tabPut s.pool.profiles n p } } tag 36
      (if same then .ok else .clamped) p.vals

/-- LOAD_PROFILE (R73). -/
def execLoadProfile (tag profile : Byte) (lower upper : BitVec 16) (weight : Byte) (discount meltHold claimDose : BitVec 16)
    (s : State) : Host.Outcome State Fault Refusal :=
  whenOn s (fun s => s.loadProfile tag profile.toNat lower.toInt upper.toInt weight.toNat discount.toNat meltHold.toNat
    claimDose.toNat)

/-! ## DECLARE (R75 to R80) -/

/-- A declaration entry after its clamps (R77). -/
def clampEntry (d : DeclEntry) : DeclEntry :=
  { d with
    quantity := if d.quantity = 0 then 1 else d.quantity
    peak := BitVec.ofInt 16 (clampTemp d.peak.toInt)
    temp := BitVec.ofInt 16 (clampTemp d.temp.toInt) }

/-- Was a value of the entry clamped (R77)? -/
def entryClamped (d : DeclEntry) : Bool := clampEntry d != d

/-- Does an entry come before another in strict order of zone, then consignment id (R78 check 1)? -/
def entryBefore (a b : DeclEntry) : Bool :=
  decide (a.zone.toNat < b.zone.toNat) || (a.zone == b.zone && decide (a.id.toNat < b.id.toNat))

/-- The part number of the first entry, after `prev`, that is out of order or repeats an id (R78 check 1). -/
def orderFault : Nat → List DeclEntry → List DeclEntry → Option Nat
  | _, _, [] => none
  | n, prev, d :: ds =>
    let ordered := match prev.getLast? with
      | some p => entryBefore p d
      | none => true
    if ordered && !prev.any (fun p => p.id == d.id) then orderFault (n + 1) (prev ++ [d]) ds else some n

/-- The part number of the first entry that satisfies `p`. -/
def firstPart (p : DeclEntry → Bool) : Nat → List DeclEntry → Option Nat
  | _, [] => none
  | n, d :: ds => if p d then some n else firstPart p (n + 1) ds

/-- The checks 1 to 5 of a complete declaration: the code and what it names (R78). -/
def State.declRefusal (s : State) (ds : List DeclEntry) : Option (Code × List Val) :=
  match orderFault 1 [] ds with
  | some n => some (.badOrder, [.num 1 n])
  | none => match firstPart (fun d => (s.findLot d.id).isSome) 1 ds with
    | some n => some (.duplicate, [.num 1 n])
    | none => match firstPart (fun d => !s.zoneIn d.zone.toNat) 1 ds with
      | some n => some (.badZone, [.num 1 n])
      | none => match firstPart (fun d => !(s.profile d.profile.toNat).loaded) 1 ds with
        | some n => some (.badProfile, [.num 1 n])
        | none => if s.pool.free.length < ds.length then some (.noRoom, [.num 1 s.pool.free.length]) else none

/-- The lot that a declaration entry gives at allocation, before its LOAD record (R80). An open claim of the id names the
lot, but not while the claim table rebuilds (R147, R162). -/
def State.allocated (s : State) (d : DeclEntry) : Lot :=
  { Lot.blank with
    state := .resident
    id := d.id
    profile := d.profile.toNat
    quantity := d.quantity.toNat
    zone := d.zone.toNat
    custodyStart := s.time.now
    entered := s.time.now
    asOf := s.time.now
    carriedDose := d.dose.toNat
    dose := d.dose.toNat
    peak := d.temp.toInt
    lastTemp := d.temp.toInt
    marks := { Marks.none with melted := d.melted }
    claim := if s.claims.rebuilding then none else (s.claims.forId d.id).map (fun k => k.number)
    provenance := d.provenance }

/-- The body of a LOAD record (R79, R207). -/
def loadBody (d : DeclEntry) (e : Nat) : RecordBody :=
  .load d.id d.zone.toNat d.profile.toNat d.melted e d.quantity.toNat d.dose.toNat d.peak.toInt d.temp.toInt d.provenance

/-- One entry of an accepted declaration is taken: its lot entry, and the part after it (R79). -/
def State.declareOne (s : State) (d : DeclEntry) : Nat × State :=
  let e := s.pool.free.head?.getD 0
  let s := { s with pool := { s.pool with free := s.pool.free.tail } }
  let s := (s.setLot e (s.allocated d)).joinList e d.zone.toNat
  let r := s.admitReserved (loadBody d e)
  let s := r.2.setLot e { r.2.lot e with evidence := [r.1] }
  (e, s.pin r.1 r.1)

/-- The entries of an accepted declaration in order (R79). -/
def declareAll : List DeclEntry → State → List Nat × State
  | [], s => ([], s)
  | d :: ds, s =>
    let r := s.declareOne d
    let rest := declareAll ds r.2
    (r.1 :: rest.1, rest.2)

/-- A complete declaration is decided, and its assembly ends (R75, R78, R79). Where the test of numbers makes the store DEGRADED,
the records of that entry go out before the STORE_BUSY answer. DESIGN CHOICE, log entry 42. -/
def State.decideDeclaration (s : State) (tag : Byte) (a : Assembly) : State :=
  let s := { s with pool := { s.pool with assembly := none } }
  match s.declRefusal a.entries with
  | some (code, vals) => s.answer tag 37 code vals
  | none => match s.tryReserve a.entries.length with
    | (false, s) => s.answer tag 37 .storeBusy []
    | (true, s) =>
      let first := s.store.nextSeq
      let r := declareAll a.entries s
      (r.2.answer tag 37 (if a.clamped then .clamped else .ok)
        (.num 4 first :: .num 1 r.1.length :: r.1.map (fun e => .num 1 e))).settle

/-- The assembly after a part, or none when the part cannot join (R75, R76). -/
def assemble (held : Option Assembly) (part count : Nat) (d : DeclEntry) : Option Assembly :=
  if count < 1 ∨ 8 < count ∨ part = 0 ∨ count < part then none
  else if part = 1 then some ⟨count, [clampEntry d], entryClamped d⟩
  else match held with
    | none => none
    | some a =>
      if a.count = count ∧ a.entries.length + 1 = part then
        some ⟨count, a.entries ++ [clampEntry d], a.clamped || entryClamped d⟩
      else none

/-- DECLARE on the part (R75, R76). -/
def State.declarePart (s : State) (tag : Byte) (part count : Nat) (d : DeclEntry) : State :=
  match assemble s.pool.assembly part count d with
  | none => State.answer { s with pool := { s.pool with assembly := none } } tag 37 .badPart []
  | some a =>
    if a.entries.length = a.count then s.decideDeclaration tag a
    else State.answer { s with pool := { s.pool with assembly := some a } } tag 37 .partTaken [.num 1 part]

/-- DECLARE (R75). -/
def execDeclare (tag part count : Byte) (entry : DeclEntry) (s : State) : Host.Outcome State Fault Refusal :=
  whenOn s (fun s => s.declarePart tag part.toNat count.toNat entry)

/-! ## MOVE (R81 to R84) -/

/-- The checks 1 to 4 of a MOVE in the order of R81's table: the code that refuses it, or the lot entry. A MOVING lot's second
MOVE to a destination that fails check 2 is BAD_ZONE by that order, and not BUSY. DEDUCED, log entry 41. -/
def State.moveChecks (s : State) (id : ConsId) (dest : Nat) : Code ⊕ Nat :=
  match s.findLot id with
  | none => .inl .unknownLot
  | some e =>
    if !s.zoneIn dest || dest == (s.lot e).zone then .inl .badZone
    else match (s.lot e).state with
      | .held => .inl .held
      | .closing => .inl .busy
      | .moving => .inl .busy
      | _ => .inr e

/-- MOVE on the part (R81, R82). Where the test of numbers makes the store DEGRADED, the records of that entry go out before
the STORE_BUSY answer. DESIGN CHOICE, log entry 42. -/
def State.moveLot (s : State) (tag : Byte) (id : ConsId) (dest : Nat) : State :=
  match s.moveChecks id dest with
  | .inl code => s.answer tag 38 code []
  | .inr e => match s.tryReserve 1 with
    | (false, s) => s.answer tag 38 .storeBusy []
    | (true, s) =>
      State.takeFence (s.setLot e { s.lot e with state := .moving, move := some ⟨dest, tag⟩ }) (.move e) e

/-- MOVE (R81). -/
def execMove (tag : Byte) (id : ConsId) (dest : Byte) (s : State) : Host.Outcome State Fault Refusal :=
  whenOn s (fun s => s.moveLot tag id dest.toNat)

/-- The body of a MOVE record (R84, R207). -/
def Lot.moveBody (l : Lot) (source dest : Nat) : RecordBody :=
  .move l.id source dest l.dose l.seconds l.asOf l.peak l.marks l.run.isSome

/-- The move event of a lot whose fence is clear (R84). Where the lot's removal retires the head, the next item's walk begins
before the lot joins the destination's list (R48, R49). DESIGN CHOICE, log entry 48. -/
def State.takeMove (s : State) (e : Nat) (m : MoveField) : State :=
  let source := (s.lot e).zone
  let s := s.leaveList e
  let s := s.setLot e { s.lot e with zone := m.dest, entered := s.time.now }
  let s := s.joinList e m.dest
  let r := s.admitReserved ((s.lot e).moveBody source m.dest)
  let s := r.2.addLotEvidence e r.1
  let s := s.setLot e { s.lot e with state := .resident, move := none }
  let s := s.dropFence (.move e)
  s.answer m.tag 38 .ok [.num 4 r.1, .num 2 (reportedMinutes (s.lot e).dose), .num 4 (s.lot e).asOf]

/-- MOVE_EVENT (R84): taken when the move fence is clear and the store controller is admitting records (R125). -/
def execMoveEvent (entry : Nat) (s : State) : Host.Outcome State Fault Refusal :=
  whenOn s (fun s => match (s.lot entry).move with
    | none => s
    | some m =>
      if (s.lot entry).state == .moving && s.fenceClear (.move entry) && s.store.admitting then (s.takeMove entry m).settle
      else s)

/-! ## LOT_QUERY (R90, R91) -/

/-- The SUMMARY section (R91), after the consignment id and entry number. -/
def State.summaryVals (s : State) (l : Lot) : List Val :=
  [.num 1 l.state.code, .num 1 l.zone, .num 1 ((l.move.map (fun m => m.dest)).getD 0), .num 1 l.profile, .num 2 l.quantity,
    .num 4 l.custodyStart, .num 4 l.entered, .num 2 (reportedMinutes l.dose), .flag (s.lotThreshold l), .temp (some l.peak),
    .flag l.marks.melted, .flag l.marks.gap, .flag l.marks.returned, .flag l.marks.trimmed, .flag l.marks.saturated,
    .flag l.token.isSome, .num 2 (l.claim.getD 0)]

/-- The ACCOUNT section laid out as R205 gives it, with the consignment id and entry number. With no item applied, the bytes
of the last applied item are 0. DEDUCED, log entry 9. -/
def Lot.accountVals (l : Lot) (e : Nat) : List Val :=
  let r := l.run.getD ⟨0, 0, 0⟩
  [.num 5 l.id.toNat, .num 1 (e % 64 + 64 * bitOf l.lastApplied.isSome + 128 * bitOf l.run.isSome), .num 4 l.dose,
    .num 4 l.carriedDose, .num 4 (min max32 l.seconds), .num 4 l.asOf, .num 2 (l.lastApplied.getD 0), .temp (some l.lastTemp),
    .num 2 l.meltRun, .num 4 r.start, .num 2 (min max16 r.length), .num 2 (signedNat 16 r.peak), .num 1 l.bands.b1,
    .num 1 l.bands.b2, .num 1 l.bands.b3, .num 1 l.bands.b4, .num 1 l.bands.b5, .num 2 l.doorOpenings,
    .num 3 (min 16777215 l.doorSeconds)]

/-- The EVIDENCE section (R91). -/
def Lot.evidenceVals (l : Lot) : List Val := .num 1 l.evidence.length :: l.evidence.map (fun n => .num 4 n)

/-- The ORIGIN section (R91). With the provenance absent its three values are sent as 0. DEDUCED, log entry 9. -/
def Lot.originVals (l : Lot) : List Val :=
  match l.provenance with
  | some p => [.flag true, .num 4 p.partCode.toNat, .num 4 p.recordSeq.toNat, .num 4 p.chain.toNat]
  | none => [.flag false, .num 4 0, .num 4 0, .num 4 0]

/-- A section of a lot (R91). -/
def State.lotSection (s : State) (e sec : Nat) : List Val :=
  let l := s.lot e
  let named := [.num 5 l.id.toNat, .num 1 e]
  match sec with
  | 1 => named ++ s.summaryVals l
  | 2 => l.accountVals e
  | 3 => named ++ l.evidenceVals
  | _ => named ++ l.originVals

/-- The lot that a LOT_QUERY names (R90). -/
def State.selectLot (s : State) : LotSelect → Option Nat
  | .byId id => s.findLot id
  | .byPosition zone position =>
    if position.toNat = 0 then none else (s.zoneList zone.toNat)[position.toNat - 1]?

/-- LOT_QUERY on the part (R90). -/
def State.lotQuery (s : State) (tag : Byte) (sel : LotSelect) (sec : Nat) : State :=
  if sec < 1 ∨ 4 < sec then s.answer tag 39 .badSection []
  else match s.selectLot sel with
    | none => s.answer tag 39 .unknownLot []
    | some e => s.answer tag 39 .ok (s.lotSection e sec)

/-- LOT_QUERY (R90). -/
def execLotQuery (tag : Byte) (sel : LotSelect) (section_ : Byte) (s : State) : Host.Outcome State Fault Refusal :=
  whenOn s (fun s => s.lotQuery tag sel section_.toNat)

end Sys2Proof.Machine
end

