-- ==== Sys2Proof/Machine/StoreCmds.lean ====
section
/-! DEFINITION. The events of the custody store: flush timer, page program, carry, erase, FETCH, and the end of the locate
stage of the scan (spec/06). -/

namespace Sys2Proof.Machine

/-! ## Flush timer (R126) -/

/-- FLUSH_TIMER_EXPIRY (R126): taken when the timer's time is reached. -/
def execFlushTimerExpiry (s : State) : Host.Outcome State Fault Refusal :=
  whenOn s (fun s => match s.store.fill with
    | some f =>
      if reached s.time.now f.flushExpiry && !f.flushWanted then
        State.settle { s with store := s.store.expireFlush s.time.now }
      else s
    | none => s)

/-! ## Page program (R128, R129, R142) -/

/-- The 512 bytes of a page: its records, then void slots (R120, R128). -/
def pageBytesOf (records : List Record) : List Byte := padTo pageBytes (records.flatMap Record.bytes)

/-- The array with a page written. -/
def Store.writePage (st : Store) (page : Nat) (bytes : List Byte) : Store :=
  { st with mem := memWrite st.mem (page * pageBytes) bytes }

/-- A record of a page is reported stored: to the hold controller, and to the carry (R128, R135). -/
def State.reportStored (s : State) (r : Record) : State :=
  let s := s.reportRecord true r.seq
  { s with store := { s.store with
      copies := s.store.copies.map (fun c => if c.new = r.seq then { c with stored := true } else c) } }

/-- The program passes (R128). -/
def State.programPass (s : State) (target : Nat) : State :=
  let records := match s.store.program with
    | some p => p.records
    | none => []
  let s := { s with store := { s.store.writePage target (pageBytesOf records) with
    programs := bump16 s.store.programs
    program := none
    flight := none } }
  let s := s.pump true
  let s := records.foldl (fun s r => s.offer (.record .stored r)) s
  records.foldl State.reportStored s

/-- The block of a failed program is retired; it keeps the history that pages before the program's hold (R129 step 1). -/
def Store.retireTarget (st : Store) (b : Nat) : Store :=
  let x := st.block b
  let first := (st.program.bind (fun p => p.records.head?)).map (fun r => r.seq)
  let older := match x.firstSeq, first with
    | some f, some p => decide (f < p)
    | _, _ => false
  st.setBlock b (if older then { x with retired := true, content := .history } else ⟨true, .bare, none⟩)

/-- The buffers take the next erased pages, and the head moves with them; then, with none left for a page or with fewer than 8
usable blocks, the store becomes DEGRADED (R129). That the pages moved before the erased ones ran out stay moved is DEDUCED, log
entry 16. -/
def State.retargetAll (s : State) (target : Nat) : State :=
  let r := s.store.retarget target
  let s := { s with store := r.2 }
  if r.1 && decide (8 ≤ r.2.usableBlocks) then s else s.enterDegraded

/-- The program, or the void program, fails (R129, R142). What the page then holds is free. -/
def State.programFail (s : State) (target : Nat) : State :=
  let s := s.scramble (target * pageBytes) pageBytes
  let st := s.store.retireTarget (target / 16)
  State.retargetAll { s with store := { st with
    programFails := bump16 st.programFails
    flight := none
    voiding := false
    hold := true } } target

/-- The void program of a warm restart passes: the page is void, and the buffers move on behind it (R142). The program count,
which R128 gives to a pass of the program page, stays as it stands. DEDUCED, log entry 43. -/
def State.voidPass (s : State) (target : Nat) : State :=
  let st := s.store.writePage target (padTo pageBytes [])
  let b := target / 16
  let st := if (st.block b).retired then st else st.setBlock b { st.block b with content := .head }
  State.retargetAll { s with store := { st with flight := none, voiding := false } } target

/-- The completion of the program in flight. -/
def State.programDone (s : State) (pass : Bool) : Host.Outcome State Fault Refusal :=
  match s.store.flight with
  | some (.program target) =>
    if 1024 ≤ target then .fault .noSuchPage
    else .next (if pass then s.programPass target else s.programFail target).settle
  | some (.void target) =>
    if 1024 ≤ target then .fault .noSuchPage
    else .next (if pass then s.voidPass target else s.programFail target).settle
  | _ => .next s

/-- PAGE_PROGRAM (R128, R129). -/
def execPageProgram (pass : Bool) (s : State) : Host.Outcome State Fault Refusal :=
  if s.time.vdd then s.programDone pass else .next s

/-! ## Carry (R134) -/

/-- CARRY_READ (R134): the record's pin count is tested, and a record still pinned waits in the carry buffer. One that is not
among the readable slots leaves the buffer empty and the carry due as it is, and its read is asked again. DESIGN CHOICE, log
entry 50. -/
def execCarryRead (s : State) : Host.Outcome State Fault Refusal :=
  whenOn s (fun s => match s.store.flight with
    | some (.read (.carry seq) b) =>
      let st := { s.store with flight := none }
      let st := if 0 < st.pinCount seq then { st with carryBuf := st.readRecord b seq } else st
      State.grantArray { s with store := st.askCarry }
    | _ => s)

/-- The old number replaced by the copy's in a lot's evidence list (R87). -/
def Lot.replaceEvidence (old new : Nat) (l : Lot) : Lot :=
  { l with evidence := l.evidence.map (fun n => if n = old then new else n) }

/-- The old number replaced by the copy's in an entry of a claim list (R156). -/
def Named.replace (old new : Nat) (n : Named) : Named := if n.current = old then { n with current := new } else n

/-- The old number replaced by the copy's in a claim (R156). -/
def Claim.replaceNumber (old new : Nat) (k : Claim) : Claim :=
  { k with evidence := k.evidence.map (Named.replace old new), records := k.records.map (Named.replace old new) }

/-- The copy of the record in the carry buffer is admitted (R134). -/
def State.admitCopy (s : State) (r : Record) : State :=
  let copy := s.makeCopy r
  let st : Store := { s.store with
    carryBuf := none
    carryDue := s.store.carryDue - 1
    copies := s.store.copies ++ [⟨r.seq, copy.seq, false⟩]
    pins := s.store.pins.map (fun p => if p.seq = r.seq then { p with seq := copy.seq } else p) }
  let s : State := { s with
    store := st
    pool := { s.pool with lots := tabMap (Lot.replaceEvidence r.seq copy.seq) s.pool.lots }
    claims := { s.claims with claims := s.claims.claims.map (Claim.replaceNumber r.seq copy.seq) } }
  State.tellDose (s.admitRecord copy)

/-- CARRY_COPY (R134): taken when the queue has a place, the reserved admissions counted. -/
def execCarryCopy (s : State) : Host.Outcome State Fault Refusal :=
  whenOn s (fun s => match s.store.carryBuf with
    | some r =>
      if s.store.status == .ready && decide (s.store.queue.length + s.store.reserved + 1 ≤ 8) then
        if s.store.numbersAllowOne then (s.admitCopy r).settle else s.exhaust
      else s
    | none => s)

/-! ## Erase (R135) -/

/-- The erase passes (R135). -/
def State.erasePass (s : State) (b : Nat) : State :=
  State.tellDose { s with store := { s.store.setBlock b { s.store.block b with content := .erased, firstSeq := none } with
    mem := memErase s.store.mem (b * blockBytes) blockBytes
    erases := bump16 s.store.erases
    candidate := none
    copies := []
    flight := none } }

/-- The erase fails (R135). What the block then holds is free. The dose engine is not told. DEDUCED, log entry 35. -/
def State.eraseFail (s : State) (b : Nat) : State :=
  let s := s.scramble (b * blockBytes) blockBytes
  let st : Store := { s.store.setBlock b ⟨true, .bare, none⟩ with
    eraseFails := bump16 s.store.eraseFails
    candidate := none
    copies := []
    flight := none }
  let s := { s with store := st }
  if st.usableBlocks < 8 then s.enterDegraded else s

/-- The completion of the erase in flight. -/
def State.eraseDone (s : State) (pass : Bool) : Host.Outcome State Fault Refusal :=
  match s.store.flight with
  | some (.erase b) =>
    if 64 ≤ b then .fault .noSuchPage
    else .next (if pass then s.erasePass b else s.eraseFail b).settle
  | _ => .next s

/-- ERASE (R135). -/
def execErase (pass : Bool) (s : State) : Host.Outcome State Fault Refusal :=
  if s.time.vdd then s.eraseDone pass else .next s

/-! ## FETCH (R137) -/

/-- Is the store SCANNING (R139, R141)? -/
def Store.scanning (st : Store) : Bool := st.status == .locate || st.status == .rebuild

/-- The record of a FETCH goes out with its answer (R137, R177). -/
def State.answerFetch (s : State) (tag : Byte) (mark : RecordMark) (r : Record) : State := s.offer (.fetchAnswer tag mark r)

/-- FETCH on the part (R137). -/
def State.fetchRecord (s : State) (tag : Byte) (seq : Nat) : State :=
  if s.store.scanning then s.answer tag 40 .notReady []
  else if s.store.fetch.isSome then s.answer tag 40 .busy []
  else match s.store.bufferedRecord seq with
    | some r => s.answerFetch tag .queued r
    | none =>
      if s.store.inHistory seq then
        State.grantArray { s with store := { s.store with reads := s.store.reads ++ [.fetch seq tag], fetch := some (seq, tag) } }
      else s.answer tag 40 .notFound []

/-- FETCH (R137). -/
def execFetch (tag : Byte) (seq : Word32) (s : State) : Host.Outcome State Fault Refusal :=
  whenOn s (fun s => s.fetchRecord tag seq.toNat)

/-- FETCH_READ (R137): the record is sought in the block that the read was granted on. -/
def execFetchRead (s : State) : Host.Outcome State Fault Refusal :=
  whenOn s (fun s => match s.store.flight with
    | some (.read (.fetch seq tag) b) =>
      let s := { s with store := { s.store with flight := none, fetch := none } }
      (match s.store.readRecord b seq with
        | some r => s.answerFetch tag .stored r
        | none => s.answer tag 40 .notFound []).grantArray
    | _ => s)

/-! ## The locate stage (R139 to R141) -/

/-- The bytes of slot `k` of a block. -/
def slotAt (mem : Mem) (b k : Nat) : List Byte := memSlice mem (b * blockBytes + k * slotBytes) slotBytes

/-- The class of a block by its first slot (R139). -/
def classifyBlock (mem : Mem) (b : Nat) : Block :=
  match Slot.ofBytes (slotAt mem b 0) with
  | .erased => ⟨false, .erased, none⟩
  | .record r => ⟨false, .history, some r.seq⟩
  | _ => ⟨true, .bare, none⟩

/-- A block index built over block numbers. -/
def buildBlocks (f : Nat → Block) : Vector Block 64 := tabMap f ⟨⟨blockNumbers⟩, by decide⟩

/-- The used block with the highest first sequence number, among `bs` (R140). Of two with the same number, which R140 does not
decide, it is the one that stands first in `bs`. DESIGN CHOICE, log entry 49. -/
def highestUsed (f : Nat → Block) : List Nat → Option (Nat × Nat)
  | [] => none
  | b :: bs =>
    match (f b).firstSeq, highestUsed f bs with
    | some n, some (b', n') => if n' ≤ n then some (b, n) else some (b', n')
    | some n, none => some (b, n)
    | none, r => r

/-- The walk over the head block's slots from the second on (R140): the last accepted number and chain value, and the
place of the first slot that fails, if one does. -/
def acceptSlots (mem : Mem) (b : Nat) : List Nat → Nat → Word32 → Nat × Word32 × Option Nat
  | [], seq, chain => (seq, chain, none)
  | k :: ks, seq, chain =>
    let bytes := slotAt mem b k
    match Slot.ofBytes bytes with
    | .void => acceptSlots mem b ks seq chain
    | .erased => (seq, chain, none)
    | .record r =>
      if r.seq = seq + 1 ∧ chainCrc chain (bytes.take 60) = r.chain then acceptSlots mem b ks r.seq r.chain
      else (seq, chain, some k)
    | .bad => (seq, chain, some k)

/-- The torn slots of the head block: from the first that failed on, those neither erased nor void (R140). -/
def tornSlots (mem : Mem) (b : Nat) : Option Nat → List Nat
  | none => []
  | some k => (numbersFrom k (128 - k)).filter (fun i =>
    Slot.ofBytes (slotAt mem b i) != .erased && Slot.ofBytes (slotAt mem b i) != .void)

/-- The array with slots of a block programmed to the void pattern (R140). -/
def voidSlots (mem : Mem) (b : Nat) (ks : List Nat) : Mem :=
  ks.foldl (fun m k => memWrite m (b * blockBytes + k * slotBytes) (padTo slotBytes [])) mem

/-- Slots of a block with free bytes, after a void program that failed. -/
def State.scrambleSlots (s : State) (b : Nat) (ks : List Nat) : State :=
  ks.foldl (fun s k => s.scramble (b * blockBytes + k * slotBytes) slotBytes) s

/-- The last page of a block that is not wholly erased; page 0 where every page is erased (R140). -/
def lastWritten (mem : Mem) (b : Nat) : Nat :=
  (numbersFrom 0 16).foldl (fun m p => if pageErased mem (16 * b + p) then m else p) 0

/-- A block is erased in the scan, or retired when its erase fails. R139 says so of the format; that the block which R140 erases
once more is retired too is DESIGN CHOICE, log entry 52. -/
def State.scanErase (s : State) (fails : List Nat) (b : Nat) : State :=
  if fails.contains b then
    let s := s.scramble (b * blockBytes) blockBytes
    { s with store := s.store.setBlock b ⟨true, .bare, none⟩ }
  else { s with store := { s.store with mem := memErase s.store.mem (b * blockBytes) blockBytes } }

/-- A blank store is formatted (R139). The page before page 0 of the first USABLE block is the last of block 63. -/
def State.formatStore (s : State) (fails : List Nat) : State :=
  let s := (blockNumbers.filter (fun b => !(s.store.block b).retired)).foldl (fun s b => s.scanErase fails b) s
  State.openFill { s with store := { s.store with headPage := 1023, nextSeq := 1, lastChain := 0xFFFFFFFF#32 } }

/-- The ERASED block that lies last in the erased run ahead of the head (R140). -/
def Store.lastErased (st : Store) : Option Nat :=
  (((ringAfter st.headBlock).takeWhile (fun b => !st.holdsHistory b)).filter
    (fun b => (st.block b).content == .erased)).getLast?

/-- The torn slots of the head block are voided; a void program that fails retires the block (R140). -/
def State.voidTorn (s : State) (fails : List Nat) (b : Nat) (torn : List Nat) : State :=
  if torn.isEmpty then s
  else if fails.contains b then
    let s := s.scrambleSlots b torn
    { s with store := s.store.setBlock b { s.store.block b with retired := true } }
  else { s with store := { s.store with mem := voidSlots s.store.mem b torn } }

/-- The store resumes behind the newest history (R140). -/
def State.resumeStore (s : State) (fails : List Nat) (b first : Nat) : State :=
  let mem := s.store.mem
  let walk := acceptSlots mem b (numbersFrom 1 127) first (BitVec.ofNat 32 (numAt (slotAt mem b 0) 60 4))
  let torn := tornSlots mem b walk.2.2
  let page := 16 * b + lastWritten mem b
  let s := s.voidTorn fails b torn
  let st := s.store
  let content : Content := if (st.block b).retired then .history else .head
  let s := State.openFill { s with store := { st.setBlock b { st.block b with content := content } with
    headPage := page
    nextSeq := walk.1 + 1
    lastChain := walk.2.1
    torn := torn.length } }
  match s.store.lastErased with
  | some e => s.scanErase fails e
  | none => s

/-- The locate stage ends (R139 to R141): the index is built, the store is formatted or resumed, the START record is
admitted, and the rebuild begins. -/
def State.locate (s : State) (fails : List Nat) : State :=
  let mem := s.store.mem
  let found := buildBlocks (classifyBlock mem)
  let used := highestUsed (classifyBlock mem) blockNumbers
  let s := { s with store := { s.store with blocks := found, torn := 0 } }
  let retired := blockNumbers.countP (fun b => (s.store.block b).retired)
  let s := match used with
    | none => s.formatStore fails
    | some (b, first) => s.resumeStore fails b first
  let s := if s.store.status == .locate then { s with store := { s.store with status := .rebuild } } else s
  let body : RecordBody := .start used.isSome s.store.torn s.store.usableBlocks retired
  (s.tryAdmit body).2.beginRebuild

/-- LOCATE_END (R139 to R141). -/
def execLocateEnd (fails : List Nat) (s : State) : Host.Outcome State Fault Refusal :=
  whenOn s (fun s => if s.store.status = .locate then (s.locate fails).settle else s)

end Sys2Proof.Machine
end

