-- ==== Sys2Proof/Machine/Restart.lean ====
section
/-! DEFINITION. Starts and restarts over all blocks, the counter of part-seconds, and the supplies (spec/09, and the restart
rules R21, R42, R66, R94, R117, R142, R165, R183). -/

namespace Sys2Proof.Machine

/-! ## The warm restart, block by block (R197) -/

/-- A zone record after a warm restart (R42). -/
def Zone.warm (now : Nat) (r : Zone) : Zone :=
  { r with
    pending := none
    alarms := .none
    raisedSince := .none
    clearedSince := .none
    aboveSince := none
    noticePending := false
    lastNotice := none
    pacing := none
    openDoors := []
    union := none
    doorCount := now
    openSeconds := 0
    openings := 0
    defrost := none }

/-- The dose engine after a warm restart (R66). -/
def Dose.warm (d : Dose) : Dose := { d with queue := [], cursor := none, stalled := false, retry := false }

/-- Had the zone of a lot an item discarded (R66)? -/
def Dose.discards (d : Dose) (z : Nat) : Bool := d.queue.any (fun i => i.tick.zone == z)

/-- A lot after a warm restart: HELD, CLOSING and MOVING lots are RESIDENT, and lots of zones that had items discarded gain
GAP (R66, R94, R117). -/
def Lot.warm (d : Dose) (l : Lot) : Lot :=
  match l.state with
  | .free => l
  | _ => { l with
      state := .resident
      token := none
      move := none
      marks := { l.marks with gap := l.marks.gap || d.discards l.zone } }

/-- The admissions that a fence's owner has reserved (R105, R81). -/
def Fence.reservation (f : Fence) : Nat :=
  match f.owner with
  | .commit _ => 3
  | .move _ => 1

/-- Is a read asked again after a warm restart (R142)? -/
def ReadReq.survives : ReadReq → Bool
  | .carry _ => true
  | .page _ => true
  | _ => false

/-- The store controller after a warm restart, `released` reservations being given back (R142). -/
def Store.warm (st : Store) (now released : Nat) : Store :=
  let inFlight := match st.flight with
    | some (.read r _) => [r]
    | _ => []
  let programming := match st.flight with
    | some (.program _) => true
    | _ => false
  Store.expireFlush { st with
    reserved := st.reserved - released
    voiding := st.voiding || programming
    flight := none
    reads := (inFlight ++ st.reads).filter ReadReq.survives
    fetch := none } now

/-- The trunk controller after a warm restart: the telegram on the line is completed, the rest of its group is not sent, and
a frame that is being received is dropped and counted (R167, R183). -/
def Trunk.warm (t : Trunk) : Trunk :=
  { t with
    queue := []
    sending := t.sending.take 1
    pause := none
    receiving := false
    inboundDrops := if t.receiving then bump16 t.inboundDrops else t.inboundDrops }

/-- The time and mode controller after a warm restart, but for the mode decision (R197). -/
def Time.warm (t : Time) (cause : Cause) : Time := { t with cause := cause, warmRestarts := bump16 t.warmRestarts }

/-- Every block takes its warm-restart state (R197). -/
def State.warmBlocks (s : State) (cause : Cause) : State :=
  { s with
    coord := { s.coord with nodes := tabMap Node.warm s.coord.nodes }
    zones := tabMap (Zone.warm s.time.now) s.zones
    dose := s.dose.warm
    fences := []
    pool := { s.pool with lots := tabMap (Lot.warm s.dose) s.pool.lots, assembly := none }
    hold := { s.hold with tokens := tabMap (fun _ => none) s.hold.tokens }
    store := s.store.warm s.time.now ((s.fences.map Fence.reservation).sum)
    claims := { s.claims with raise := none }
    trunk := s.trunk.warm
    time := s.time.warm cause }

/-- The warm restart: the blocks, then the mode, then the new sweep (R197). -/
def State.warmRestart (s : State) (cause : Cause) : State := ((s.warmBlocks cause).decideMode).restartField

/-! ## The cold start (R196) -/

/-- The cold start: every block takes its cold-start state; the custody array is kept. -/
def State.coldStart (s : State) : State :=
  { State.reset with
    store := { Store.initial with mem := s.store.mem }
    time := { Time.initial with vretLow := s.time.vretLow }
    free := s.free
    pending := s.pending }

/-! ## Part-seconds (R185, R186, R191) -/

/-- The counter one second on; at its greatest value it stays (R185). -/
def State.tickClock (s : State) : State :=
  if s.time.now < max32 then { s with time := { s.time with now := s.time.now + 1 } } else s

/-- One second: with VDD the wake-until time is tested when it is reached; on VRET the counter alone steps; with neither
nothing does (R185, R186, R191). With VDD absent, VRET is read as valid while the retention mark is. DEDUCED, log entry 19.
The wake-until time is tested in the step itself, before any expiry of the same second: DEDUCED from R185 where an example of
R193 could be read otherwise, log entry 53. A wake-until time that a wake hold of 1 has set a second ago is reached by the step as
any other: DEDUCED from R185 and R190 where R191 could be read otherwise, log entry 54. -/
def State.secondPasses (s : State) : State :=
  let t := s.tickClock
  if s.time.vdd then (if t.time.now = s.time.wakeUntil ∧ s.time.now < max32 then t.decideMode else t)
  else if s.time.retention then t
  else s

/-- PART_SECONDS_STEP (R185). -/
def execPartSecondsStep (s : State) : Host.Outcome State Fault Refusal := .next s.secondPasses

/-! ## The supplies (R194, R195) -/

/-- VRET falls below its valid range, or returns into it; a fall with VDD absent makes the retention mark invalid (R194), and
its return does not mend the mark. DEDUCED, log entry 19. -/
def State.setVret (s : State) (low : Bool) : State :=
  { s with time := { s.time with
      vretLow := low
      retention := s.time.retention && !(low && !s.time.vdd) } }

/-- An array operation in flight is cut off: what its page or block holds is free (R195). -/
def State.cutOff (s : State) : State :=
  match s.store.flight with
  | some (.program target) => s.scramble (target * pageBytes) pageBytes
  | some (.void target) => s.scramble (target * pageBytes) pageBytes
  | some (.erase b) => s.scramble (b * blockBytes) blockBytes
  | _ => s

/-- A dip begins: telegrams and the array operation are cut off; with VRET low too the retained state is lost
(R194, R195). -/
def State.dip (s : State) : State :=
  let s := s.cutOff
  { s with
    coord := { s.coord with line := .free }
    trunk := { s.trunk with sending := [] }
    time := { s.time with vdd := false, retention := s.time.retention && !s.time.vretLow } }

/-- DIP (R195). -/
def execDip (s : State) : Host.Outcome State Fault Refusal := whenOn s State.dip

/-- RETENTION_LOSS (R194). -/
def execRetentionLoss (s : State) : Host.Outcome State Fault Refusal := .next (s.setVret true)

/-- RETENTION_SUPPLY_LOW (R194). -/
def execRetentionSupplyLow (low : Bool) (s : State) : Host.Outcome State Fault Refusal := .next (s.setVret low)

/-- VDD rises: a warm restart with a valid retention mark, a cold start without (R194). -/
def State.powerUp (s : State) : State :=
  if s.time.retention then
    (State.warmRestart { s with time := { s.time with vdd := true } } .dip).settle
  else s.coldStart

/-- VDD_RISE (R194). -/
def execVddRise (s : State) : Host.Outcome State Fault Refusal := .next (if s.time.vdd then s else s.powerUp)

end Sys2Proof.Machine
end

