-- ==== Sys2Proof/Machine/Trunk.lean ====
section
/-! DEFINITION. The trunk controller: settings, IDENTIFY, STATUS, PAUSE, RESTART, the receiver's refusals and the
transmitter (spec/08). -/

namespace Sys2Proof.Machine

/-! ## Settings (R172 to R174) -/

/-- The range of a setting that has one, by its number (R172, R204). Part code and epoch offset take every value. -/
def settingRange : Nat → Nat × Nat
  | 1 => (1, 60)
  | 2 => (10, 600)
  | 3 => (1, 15)
  | 4 => (0, 160)
  | 5 => (10, 600)
  | 6 => (10, 3600)
  | 7 => (10, 3600)
  | 8 => (0, 3600)
  | 9 => (0, 3600)
  | 10 => (1, 60)
  | _ => (0, max32)

/-- The value of a setting, by its number (R174, R204). -/
def Settings.get (t : Settings) : Nat → Nat
  | 1 => t.roadPeriod
  | 2 => t.parkedPeriod
  | 3 => t.missLimit
  | 4 => t.blindPenalty
  | 5 => t.holdLimit
  | 6 => t.doorHeldLimit
  | 7 => t.pacingInterval
  | 8 => t.defrostAllowance
  | 9 => t.wakeHold
  | 10 => t.flushDelay
  | 11 => bitsNat [t.wakeDoor, t.wakeScan, t.wakeAlarm]
  | 12 => bitOf t.ignition
  | 13 => bitOf t.depot
  | 14 => t.partCode
  | _ => t.epoch

/-- The settings with one written, by its number. -/
def Settings.put (t : Settings) (n v : Nat) : Settings :=
  match n with
  | 1 => { t with roadPeriod := v }
  | 2 => { t with parkedPeriod := v }
  | 3 => { t with missLimit := v }
  | 4 => { t with blindPenalty := v }
  | 5 => { t with holdLimit := v }
  | 6 => { t with doorHeldLimit := v }
  | 7 => { t with pacingInterval := v }
  | 8 => { t with defrostAllowance := v }
  | 9 => { t with wakeHold := v }
  | 10 => { t with flushDelay := v }
  | 11 => { t with wakeDoor := bitAt v 0, wakeScan := bitAt v 1, wakeAlarm := bitAt v 2 }
  | 12 => { t with ignition := v != 0 }
  | 13 => { t with depot := v != 0 }
  | 14 => { t with partCode := v }
  | 15 => { t with epoch := v }
  | _ => t

/-- Does the number name a setting (R204)? -/
def settingOk (n : Nat) : Bool := decide (1 ≤ n) && decide (n ≤ 15)

/-- The value that SET writes: wake sources from bits 0 to 2, a number clamped into its range (R173, R204). -/
def settingValue (n v : Nat) : Nat :=
  if n = 11 then v % 8 else clampNat (settingRange n).1 (settingRange n).2 v

/-- The first failing check of SET (R173). -/
def State.setRefusal (s : State) (n v : Nat) : Option Code :=
  if !settingOk n then some .badSetting
  else if (n = 12 ∨ n = 13) ∧ 1 < v then some .badValue
  else if n = 13 ∧ (v == 1) ≠ s.trunk.settings.depot ∧ s.pool.free.length ≠ 64 then some .notEmpty
  else none

/-- A setting is written; a SET of the epoch offset clears UNSYNCED, and a SET of the wake sources, ignition or role
decides the mode anew (R173, R187, R189). -/
def State.writeSetting (s : State) (n v : Nat) : State :=
  let before := s.time.mode
  let s := { s with trunk := { s.trunk with
    settings := s.trunk.settings.put n v
    unsynced := s.trunk.unsynced && n != 15 } }
  if n = 11 ∨ n = 12 ∨ n = 13 then s.decideMode.expireAfter before else s

/-- SET on the part (R173). -/
def State.setSetting (s : State) (tag : Byte) (n v : Nat) : State :=
  match s.setRefusal n v with
  | some code => s.answer tag 32 code []
  | none =>
    let w := settingValue n v
    (s.writeSetting n w).answer tag 32 (if w = v ∨ n = 11 then .ok else .clamped) [Val.num 1 n, Val.num 4 w]

/-- SET (R173). -/
def execSet (tag setting : Byte) (value : Word32) (s : State) : Host.Outcome State Fault Refusal :=
  whenOn s (fun s => s.setSetting tag setting.toNat value.toNat)

/-- GET on the part (R174). -/
def State.getSetting (s : State) (tag : Byte) (n : Nat) : State :=
  if settingOk n then
    s.answer tag 33 .ok (Val.num 4 (s.trunk.settings.get n) :: (if n = 15 then [Val.flag s.trunk.unsynced] else []))
  else s.answer tag 33 .badSetting []

/-- GET (R174). -/
def execGet (tag setting : Byte) (s : State) : Host.Outcome State Fault Refusal :=
  whenOn s (fun s => s.getSetting tag setting.toNat)

/-! ## IDENTIFY (R175) -/

/-- The fields of an IDENTIFY answer (R175). -/
def State.identityVals (s : State) : List Val :=
  [Val.num 2 1207, Val.num 2 340, Val.num 1 Config.designRevision, Val.num 6 Config.dieNumber.toNat, Val.num 1 64,
    Val.num 1 16, Val.num 1 8,
    Val.num 4 s.trunk.settings.partCode, Val.num 1 (bitOf s.trunk.settings.depot), Val.num 1 s.store.status.code,
      Val.num 4 s.time.now,
    Val.num 4 s.trunk.settings.epoch, Val.flag s.trunk.unsynced, Val.num 1 s.time.cause.code, Val.num 2 s.time.warmRestarts]

/-- IDENTIFY (R175). -/
def execIdentify (tag : Byte) (s : State) : Host.Outcome State Fault Refusal :=
  whenOn s (fun s => s.answer tag 46 .ok s.identityVals)

/-! ## STATUS (R176), one function for each section -/

/-- An optional time: its presence bit and the time (R203); an absent one is sent as 0. DEDUCED, log entry 9. -/
def optTime (t : Option Nat) : List Val := [Val.flag t.isSome, Val.num 4 (t.getD 0)]

/-- An optional number of `width` bytes with its presence bit; an absent one is sent as 0. DEDUCED, log entry 9. -/
def optNum (width : Nat) (n : Option Nat) : List Val := [Val.flag n.isSome, Val.num width (n.getD 0)]

/-- The fields of a mailbox (R11, R13, R15); a scanner's is its outstanding request (R16), the scanner record being reported
by section SCANNER. DEDUCED, log entry 9. A defrost report is one bit, set for START. DESIGN CHOICE, log entry 39. -/
def Node.boxVals (n : Node) : List Val :=
  match n.box with
  | .probe b => Val.temp b.value :: optNum 1 b.lastSeq ++ [Val.flag b.fresh, Val.flag b.fault, Val.flag b.stale, Val.num 2 b.lost]
  | .door b => Val.num 1 b.state.code :: optTime b.changeTime ++ [Val.flag b.changed]
  | .unit b => Val.num 1 b.fault.code :: optTime (b.report.map (fun r => r.time)) ++
      [Val.flag ((b.report.map (fun r => r.start)).getD false)]
  | .none => match n.entry with
    | some _ => [Val.flag (n.outstanding != .clear)]
    | none => []

/-- NODE (R5). -/
def State.nodeVals (s : State) (a : Nat) : List Val :=
  let n := s.node a
  entryVals n.entry ++ [Val.num 1 n.liveness.code, Val.num 1 n.miss] ++ n.boxVals

/-- The stranger map (R10) as bits, address a at bit a - 1. Which bit stands for which address is DESIGN CHOICE, log entry
39. -/
def strangerBits (l : List Nat) : Nat := bitsNat (addresses.map (fun a => l.contains a))

/-- FIELD (R10). The sweep timer's expiry is no optional time, and so has no presence bit (R2, R203). -/
def State.fieldVals (s : State) : List Val :=
  let c := s.coord
  [Val.num 4 (strangerBits c.strangers), Val.num 2 c.linkErrors, Val.num 2 c.misfits, Val.num 2 c.strangerCount,
    Val.num 2 c.overruns,
    Val.num 2 c.discarded, Val.num 1 c.phase.code, Val.num 1 c.nextAddress] ++ optTime c.lastStart
    ++ [Val.num 4 (c.timer.getD 0), Val.flag c.owed, Val.num 1 c.answers.length]

/-- ZONE (R23). -/
def State.zoneVals (s : State) (z : Nat) : List Val :=
  let r := s.zone z
  [Val.num 1 (bitOf r.inService), Val.temp (some r.limit), Val.num 2 r.delay, Val.num 1 r.state.code,
    Val.temp r.lastValid, Val.temp r.latest,
    Val.num 4 r.lastTick] ++ optTime r.union ++ optTime r.defrost ++ [Val.num 1 r.alarms.toNat, Val.flag r.noticePending,
    Val.flag r.pending.isSome, Val.flag (s.forcedOrder z).isSome, Val.num 2 r.lagged]

/-- DOSE (R64). The numbers of the head and the newest item have presence bits, and are 0 with the queue empty. DEDUCED, log
entry 9. -/
def State.doseVals (s : State) : List Val :=
  let d := s.dose
  let head := d.queue.head?
  let newest := d.queue.getLast?
  Val.num 1 d.queue.length :: optNum 2 (head.map (fun i => i.number)) ++ optNum 2 (newest.map (fun i => i.number))
    ++ [Val.num 1 ((head.map (fun i => i.tick.zone)).getD 0)] ++ optNum 5 (d.cursor.map (fun e => (s.lot e).id.toNat))
    ++ [Val.flag d.stalled, Val.num 2 d.stallCount, Val.num 2 d.nextItem, Val.num 1 d.roundRobin]

/-- The number of lots in a state (R92). -/
def State.lotsIn (s : State) (st : LotState) : Nat := entryNumbers.countP (fun e => (s.lot e).state == st)

/-- The profiles 0..7. -/
def profileNumbers : List Nat := numbersFrom 0 8

/-- POOL (R92). With no declaration under assembly the count and the number of entries received are 0, and the head of an
empty free list is a clear presence bit and 0. DEDUCED, log entry 9. -/
def State.poolVals (s : State) : List Val :=
  Val.num 1 s.pool.free.length :: optNum 1 s.pool.free.head? ++ zoneNumbers.map (fun z => Val.num 1 (s.zoneList z).length)
    ++ [Val.num 1 (s.lotsIn .resident), Val.num 1 (s.lotsIn .held), Val.num 1 (s.lotsIn .closing), Val.num 1 (s.lotsIn .moving),
      Val.num 1 ((s.pool.assembly.map (fun a => a.count)).getD 0),
        Val.num 1 ((s.pool.assembly.map (fun a => a.entries.length)).getD 0)]
    ++ profileNumbers.map (fun p => Val.flag (s.profile p).loaded)

/-- TOKEN (R115). The token's state is one bit, set for IN_USE. DESIGN CHOICE, log entry 39. -/
def State.tokenVals (s : State) (k : Nat) : List Val :=
  (match s.token k with
    | none => [Val.flag false]
    | some u => [Val.flag true, Val.num 5 u.id.toNat, Val.num 1 u.entry, Val.num 1 u.scanner,
      Val.num 4 u.taken] ++ optTime u.expiry)
    ++ [Val.num 2 s.hold.grants, Val.num 2 s.hold.expiries, Val.num 2 s.hold.closings]

/-- The stage of a last commit (R97): 0 waiting, 1 recorded, 2 answered. The codes are DESIGN CHOICE, log entry 39. -/
def LastCommit.stage (c : LastCommit) : Nat :=
  match c.answer, c.seq with
  | some _, _ => 2
  | none, some _ => 1
  | none, none => 0

/-- SCANNER (R115). Of the last commit, its consignment id and record sequence stand beside its stage and stored mark; the
figures of its answer are left out, and an absent last commit is its clear presence bit alone. DEDUCED, log entry 9. -/
def scannerVals (r : ScannerRecord) : List Val :=
  Val.num 1 (r.token.getD 255) :: optNum 5 (r.lastExpired.map (fun i => i.toNat)) ++
    (match r.lastCommit with
      | none => [Val.flag false]
      | some c => [Val.flag true, Val.num 5 c.id.toNat, Val.num 1 c.stage, Val.num 4 (c.seq.getD 0), Val.flag c.stored])

/-- STORE (R143). The torn count has the two bytes of START's field (R207), where the least width for its greatest value, 127
(R140), is one. DEDUCED, log entry 9. -/
def State.storeVals (s : State) : List Val :=
  let st := s.store
  [Val.num 1 st.status.code, Val.num 1 st.headBlock, Val.num 1 (st.headPage % 16), Val.num 1 st.erasedBlocks,
    Val.num 1 st.usableBlocks,
    Val.num 2 st.headroom, Val.num 1 st.queue.length, Val.num 1 st.reserved, Val.num 1 st.carryDue] ++ optNum 1 st.candidate
    ++ [Val.flag st.hold, Val.num 4 st.nextSeq, Val.num 4 st.lastChain.toNat, Val.num 4 (st.oldestSeq.getD 0), Val.num 2 st.torn,
      Val.num 2 st.programs, Val.num 2 st.programFails, Val.num 2 st.erases, Val.num 2 st.eraseFails, Val.flag st.fetch.isSome]

/-- The pass of the rebuild and its pages read (R164): 0 none or not begun, 1 claim pass, 2 mapping pass. The codes are DESIGN
CHOICE, log entry 39. -/
def Rebuild.place : Rebuild → Nat × Nat
  | .no => (0, 0)
  | .waiting => (0, 0)
  | .claimPass k => (1, k)
  | .mappingPass k => (2, k)

/-- CLAIM (R164): part 0 lists the first 16 claims, part 1 the rest (R176). -/
def State.claimVals (s : State) (part : Nat) : List Val :=
  let c := s.claims
  let listed := if part = 0 then c.claims.take 16 else c.claims.drop 16
  [Val.flag c.rebuilding, Val.num 1 c.rebuild.place.1, Val.num 2 c.rebuild.place.2, Val.num 1 c.claims.length,
    Val.num 1 (c.claims.countP (fun k => !k.seen))] ++ listed.map (fun k => Val.num 2 k.number)
    ++ [Val.num 2 c.nextNumber, Val.num 2 c.dropped, Val.flag c.raise.isSome]

/-- The milliseconds gone since a PAUSE was taken (R180): within the seconds that part-seconds has counted since, one more or
less, not before what an answer has shown, and up to the duration; free within these bounds. A counter that stands at its
greatest value gives no upper bound (R185). DESIGN CHOICE, log entry 1. -/
def Pause.elapsed (p : Pause) (now free : Nat) : Nat :=
  let seconds := now - p.taken
  let least := max p.shown ((seconds - 1) * 1000)
  let most := if now = max32 then p.duration else (seconds + 1) * 1000
  min p.duration (max least (min most (Config.pauseElapsed free)))

/-- The pause with the milliseconds gone that an answer shows. -/
def State.shownPause (s : State) (p : Pause) : Pause := { p with shown := p.elapsed s.time.now s.free }

/-- TRUNK (R181). The milliseconds that remain of a pause are its duration less those gone; with no pause they are 0 (log
entry 9). -/
def State.trunkVals (s : State) : List Val :=
  let t := s.trunk
  let urgent := t.queue.filter Entry.urgent
  let bulk := t.queue.filter (fun e => !e.urgent)
  let remaining := match t.pause with
    | some p => p.duration - p.elapsed s.time.now s.free
    | none => 0
  [Val.num 1 (placesOf urgent), Val.num 1 (placesOf bulk), Val.num 1 urgent.length, Val.num 1 bulk.length, Val.flag t.pause.isSome,
    Val.num 2 remaining, Val.num 2 t.inboundDrops, Val.num 2 t.badKinds, Val.num 2 t.badLengths, Val.num 2 t.bulkDrops,
      Val.num 2 t.urgentDrops,
    Val.num 2 t.evictions, Val.num 2 t.recordDrops]

/-- TIME (R198). The seconds that remain to the wake-until time are 3,600 at most (R172, R190), and so have two bytes (R203). -/
def State.timeVals (s : State) : List Val :=
  let t := s.time
  let e := s.trunk.settings
  [Val.num 4 t.now, Val.num 4 e.epoch, Val.flag s.trunk.unsynced, Val.num 1 t.mode.code, Val.num 2 t.modeChanges,
    Val.num 1 (bitOf e.ignition),
    Val.num 1 (bitOf e.depot), Val.num 1 (bitsNat [e.wakeDoor, e.wakeScan, e.wakeAlarm]), Val.num 2 e.wakeHold,
      Val.num 4 t.wakeUntil,
    Val.num 2 (t.wakeUntil - t.now), Val.flag t.lastWake.isSome, Val.num 1 ((t.lastWake.map (fun w => w.1.code)).getD 0),
    Val.num 4 ((t.lastWake.map (fun w => w.2)).getD 0), Val.num 1 t.cause.code, Val.num 2 t.warmRestarts, Val.flag t.vretLow]

/-- The section that STATUS names, or the code that refuses it (R176). -/
def State.statusSection (s : State) (sec part : Nat) : Code ⊕ List Val :=
  let whole := fun (vals : List Val) => if part = 0 then (.inr vals : Code ⊕ List Val) else .inl .badIndex
  match sec with
  | 1 => if 1 ≤ part ∧ part ≤ 31 then .inr (s.nodeVals part) else .inl .badIndex
  | 2 => whole s.fieldVals
  | 3 => if 1 ≤ part ∧ part ≤ 8 then .inr (s.zoneVals part) else .inl .badIndex
  | 4 => whole s.doseVals
  | 5 => whole s.poolVals
  | 6 => if part ≤ 3 then .inr (s.tokenVals part) else .inl .badIndex
  | 7 => if 1 ≤ part ∧ part ≤ 31 then
      match s.scannerRecord part with
      | some r => .inr (scannerVals r)
      | none => .inl .badIndex
    else .inl .badIndex
  | 8 => whole s.storeVals
  | 9 => if part ≤ 1 then .inr (s.claimVals part) else .inl .badIndex
  | 10 => whole s.trunkVals
  | 11 => whole s.timeVals
  | _ => .inl .badSection

/-- A TRUNK section of a running pause spends the free value it draws, and keeps what it has shown. -/
def State.drawPause (s : State) (sec : Nat) : State :=
  if sec = 10 ∧ s.trunk.pause.isSome then
    { s with trunk := { s.trunk with pause := s.trunk.pause.map s.shownPause }, free := s.free + 1 }
  else s

/-- STATUS on the part (R176). -/
def State.reportStatus (s : State) (tag : Byte) (sec part : Nat) : State :=
  match s.statusSection sec part with
  | .inl code => s.answer tag 47 code []
  | .inr vals => (s.drawPause sec).answer tag 47 .ok vals

/-- STATUS (R176). -/
def execStatus (tag section_ part : Byte) (s : State) : Host.Outcome State Fault Refusal :=
  whenOn s (fun s => s.reportStatus tag section_.toNat part.toNat)

/-! ## PAUSE (R180) -/

/-- The pause ends, and a free transmitter chooses again (R180). -/
def State.endPause (s : State) : State := { s with trunk := Trunk.transmit { s.trunk with pause := none } }

/-- PAUSE on the part (R180). -/
def State.pauseFor (s : State) (tag : Byte) (d : Nat) : State :=
  let s := if d = 0 then s.endPause else { s with trunk := { s.trunk with pause := some ⟨d, s.time.now, 0⟩ } }
  s.answer tag 44 .ok [Val.num 2 d]

/-- PAUSE (R180). -/
def execPause (tag : Byte) (duration : BitVec 16) (s : State) : Host.Outcome State Fault Refusal :=
  whenOn s (fun s => s.pauseFor tag duration.toNat)

/-- PAUSE_EXPIRY (R180). -/
def execPauseExpiry (s : State) : Host.Outcome State Fault Refusal :=
  whenOn s (fun s => if s.trunk.pause.isSome then s.endPause else s)

/-! ## RESTART (R182) -/

/-- RESTART on the part, by its form byte (R182). -/
def State.restart (s : State) (tag : Byte) (form : Nat) : State :=
  match form with
  | 1 => ((s.warmRestart .restart).answer tag 45 .ok []).settle
  | 2 => s.restartField.answer tag 45 .ok []
  | _ => s.answer tag 45 .badValue []

/-- RESTART_WARM (R182). -/
def execRestartWarm (tag form : Byte) (s : State) : Host.Outcome State Fault Refusal :=
  whenOn s (fun s => s.restart tag form.toNat)

/-- RESTART_FIELD (R182). -/
def execRestartField (tag form : Byte) (s : State) : Host.Outcome State Fault Refusal :=
  whenOn s (fun s => s.restart tag form.toNat)

/-! ## The receiver's refusals (R167, R168) and the transmitter (R179) -/

/-- INBOUND_TELEGRAM_DROPPED (R167). -/
def execInboundTelegramDropped (s : State) : Host.Outcome State Fault Refusal :=
  whenOn s (fun s => { s with trunk := { s.trunk with inboundDrops := bump16 s.trunk.inboundDrops } })

/-- BAD_KIND (R168). -/
def execBadKind (tag kind : Byte) (s : State) : Host.Outcome State Fault Refusal :=
  whenOn s (fun s => State.answer { s with trunk := { s.trunk with badKinds := bump16 s.trunk.badKinds } } tag kind .badKind [])

/-- BAD_LENGTH (R168). -/
def execBadLength (tag kind : Byte) (s : State) : Host.Outcome State Fault Refusal :=
  whenOn s (fun s =>
    State.answer { s with trunk := { s.trunk with badLengths := bump16 s.trunk.badLengths } } tag kind .badLength [])

/-- TELEGRAM_SENT (R179): the rest of the group follows, or the free transmitter chooses. -/
def execTelegramSent (s : State) : Host.Outcome State Fault Refusal :=
  whenOn s (fun s => match s.trunk.sending with
    | [] => s
    | _ :: rest => { s with trunk := Trunk.transmit { s.trunk with sending := rest } })

end Sys2Proof.Machine
end

