-- ==== Sys2Proof/Machine/Dispatch.lean ====
section
/-! DEFINITION. The meaning of every command: one arm for each constructor of `Instr`. -/

namespace Sys2Proof.Machine

/-- The effect of a command on everything but the queue. -/
def exec (i : Instr) (s : State) : Host.Outcome State Fault Refusal :=
  match i with
  | .sample src seq raw status => Sys2Proof.Machine.execSample src seq raw status s
  | .door src state age => Sys2Proof.Machine.execDoor src state age s
  | .unit src defrost state => Sys2Proof.Machine.execUnit src defrost state s
  | .idle src => Sys2Proof.Machine.execIdle src s
  | .misfit src kind body => Sys2Proof.Machine.execMisfit src kind body s
  | .stranger src kind body => Sys2Proof.Machine.execStranger src kind body s
  | .fieldTelegramDropped => Sys2Proof.Machine.execFieldTelegramDropped s
  | .answerWindowClose => Sys2Proof.Machine.execAnswerWindowClose s
  | .hold src id => Sys2Proof.Machine.execHold src id s
  | .release src id => Sys2Proof.Machine.execRelease src id s
  | .commit src id recipient outcome reason => Sys2Proof.Machine.execCommit src id recipient outcome reason s
  | .sweepTimerExpiry => Sys2Proof.Machine.execSweepTimerExpiry s
  | .scanAnswerSent => Sys2Proof.Machine.execScanAnswerSent s
  | .pacingExpiry zone => Sys2Proof.Machine.execPacingExpiry zone s
  | .itemApplication => Sys2Proof.Machine.execItemApplication s
  | .closingEvent token => Sys2Proof.Machine.execClosingEvent token s
  | .holdExpiry token => Sys2Proof.Machine.execHoldExpiry token s
  | .set tag setting value => Sys2Proof.Machine.execSet tag setting value s
  | .get tag setting => Sys2Proof.Machine.execGet tag setting s
  | .identify tag => Sys2Proof.Machine.execIdentify tag s
  | .status tag section_ part => Sys2Proof.Machine.execStatus tag section_ part s
  | .pause tag duration => Sys2Proof.Machine.execPause tag duration s
  | .pauseExpiry => Sys2Proof.Machine.execPauseExpiry s
  | .restartWarm tag form => Sys2Proof.Machine.execRestartWarm tag form s
  | .restartField tag form => Sys2Proof.Machine.execRestartField tag form s
  | .loadNode tag address enrolled role zone offset forward => Sys2Proof.Machine.execLoadNode tag address enrolled role zone offset forward s
  | .loadZone tag zone service limit delay => Sys2Proof.Machine.execLoadZone tag zone service limit delay s
  | .loadProfile tag profile lower upper weight discount meltHold claimDose => Sys2Proof.Machine.execLoadProfile tag profile lower upper weight discount meltHold claimDose s
  | .declare tag part count entry => Sys2Proof.Machine.execDeclare tag part count entry s
  | .move tag id dest => Sys2Proof.Machine.execMove tag id dest s
  | .moveEvent entry => Sys2Proof.Machine.execMoveEvent entry s
  | .lotQuery tag sel section_ => Sys2Proof.Machine.execLotQuery tag sel section_ s
  | .fetch tag seq => Sys2Proof.Machine.execFetch tag seq s
  | .raiseById tag id => Sys2Proof.Machine.execRaiseById tag id s
  | .raiseByRecord tag seq => Sys2Proof.Machine.execRaiseByRecord tag seq s
  | .claimRead tag number take section_ => Sys2Proof.Machine.execClaimRead tag number take section_ s
  | .verdict tag number verdict => Sys2Proof.Machine.execVerdict tag number verdict s
  | .inboundTelegramDropped => Sys2Proof.Machine.execInboundTelegramDropped s
  | .badKind tag kind => Sys2Proof.Machine.execBadKind tag kind s
  | .badLength tag kind => Sys2Proof.Machine.execBadLength tag kind s
  | .telegramSent => Sys2Proof.Machine.execTelegramSent s
  | .flushTimerExpiry => Sys2Proof.Machine.execFlushTimerExpiry s
  | .pageProgram pass => Sys2Proof.Machine.execPageProgram pass s
  | .carryRead => Sys2Proof.Machine.execCarryRead s
  | .carryCopy => Sys2Proof.Machine.execCarryCopy s
  | .erase pass => Sys2Proof.Machine.execErase pass s
  | .fetchRead => Sys2Proof.Machine.execFetchRead s
  | .rebuildRead => Sys2Proof.Machine.execRebuildRead s
  | .locateEnd fails => Sys2Proof.Machine.execLocateEnd fails s
  | .partSecondsStep => Sys2Proof.Machine.execPartSecondsStep s
  | .dip => Sys2Proof.Machine.execDip s
  | .retentionLoss => Sys2Proof.Machine.execRetentionLoss s
  | .vddRise => Sys2Proof.Machine.execVddRise s
  | .retentionSupplyLow low => Sys2Proof.Machine.execRetentionSupplyLow low s

end Sys2Proof.Machine
end

