-- ==== Sys2Proof/Safety.lean ====
section
/-! DEFINITION. What a safe state is, in the terms that claims use: invariants of the state, and answers of a command. -/

namespace Sys2Proof

open Sys2Proof.Machine

/-- The command answers a next state. -/
def Runs (c : Instr) (s : State) : Prop := ∃ t, exec c s = .next t

/-- The command answers a next state, and that state is as `P` says. -/
def Gives (c : Instr) (s : State) (P : State → Prop) : Prop := ∃ t, exec c s = .next t ∧ P t

/-! ## Invariants of the state -/

/-- The custody array has its canonical form. -/
def ArrayOk (s : State) : Prop := memWf s.store.mem = true

/-- The array operation in flight, and all from which one is granted, name pages 0..1023 and blocks 0..63, which exist (R120,
R126, R128, R136): the head page, the targets of the fill page, a closed page and the program page, and the candidate. -/
def FlightOk (s : State) : Prop :=
  s.store.headPage < 1024
  ∧ (∀ f, s.store.fill = some f → f.target < 1024)
  ∧ (∀ p, s.store.closed = some p ∨ s.store.program = some p → p.target < 1024)
  ∧ (∀ c, s.store.candidate = some c → c < 64)
  ∧ match s.store.flight with
    | some (.program t) => t < 1024
    | some (.void t) => t < 1024
    | some (.erase b) => b < 64
    | _ => True

/-- The queues and tables hold no more than the spec gives them: 16 dose items (R44), 24 telegrams in the outbound queue
(R177), 32 open claims (R144). -/
def TablesOk (s : State) : Prop :=
  s.dose.queue.length ≤ 16 ∧ placesOf s.trunk.queue ≤ 24 ∧ s.claims.claims.length ≤ 32

/-- The free list holds the FREE entries once each. Another entry is on the list of its zone, which holds it once, and on no
other list; a MOVING lot has a zone 1..8 as destination (R69 to R71). -/
def ListsOk (s : State) : Prop :=
  s.pool.free.Nodup ∧ (∀ e ∈ s.pool.free, e < 64)
  ∧ (∀ e, e < 64 →
    ((s.lot e).state = .free ↔ e ∈ s.pool.free) ∧ ((s.lot e).state ≠ .free → e ∈ s.zoneList (s.lot e).zone)
    ∧ ((s.lot e).state = .moving → ∃ m, (s.lot e).move = some m ∧ 1 ≤ m.dest ∧ m.dest ≤ 8))
  ∧ ∀ z, (s.zoneList z).Nodup ∧ ∀ e ∈ s.zoneList z, (s.lot e).state ≠ .free ∧ (s.lot e).zone = z

/-- The addresses of SCANNER entries are those with a scanner record (R5, R97). The lot of a token in use is HELD or CLOSING and
names that token, and the token's scanner has it as its current token; every HELD or CLOSING lot, and every current token, is
named so by a token in use (R96, R97). -/
def TokensOk (s : State) : Prop :=
  (∀ a, 1 ≤ a → a ≤ 31 → ((s.node a).scanner ≠ none ↔ ∃ e, (s.node a).entry = some e ∧ e.role = .scanner))
  ∧ (∀ k u, s.token k = some u →
    ((s.lot u.entry).state = .held ∨ (s.lot u.entry).state = .closing) ∧ (s.lot u.entry).token = some k
    ∧ ∃ r, (s.node u.scanner).scanner = some r ∧ r.token = some k)
  ∧ (∀ e, e < 64 → ((s.lot e).state = .held ∨ (s.lot e).state = .closing) → ∃ k u, s.token k = some u ∧ u.entry = e)
  ∧ ∀ a r k, (s.node a).scanner = some r → r.token = some k → ∃ u, s.token k = some u ∧ u.scanner = a

/-- Lots, tokens, lists and scanners agree (R69 to R71, R96, R97). -/
def CustodyOk (s : State) : Prop := ListsOk s ∧ TokensOk s

/-! ## What a command leaves -/

/-- A field address keeps all that stands beside its entry, but for the mark of its outstanding request. -/
def NodeKept (s t : State) (a : Nat) : Prop :=
  (t.node a).entry = (s.node a).entry ∧ (t.node a).liveness = (s.node a).liveness ∧ (t.node a).miss = (s.node a).miss
    ∧ (t.node a).box = (s.node a).box ∧ (t.node a).scanner = (s.node a).scanner

/-- The poll exchange of address `a`, which is not the last, has ended: of the coordinator `c` only the node table, the
line, the pending answers and their discarded count are other, and the next address. With no answer pending, the line polls
the next address while SWEEPING (R4, R18). -/
def ExchangeEnded (c : Coord) (t : State) (a : Nat) : Prop :=
  t.coord = { c with
      nodes := t.coord.nodes, line := t.coord.line, answers := t.coord.answers, discarded := t.coord.discarded
      nextAddress := a + 1 }
    ∧ (c.answers = [] → t.coord.line = if c.phase = .sweeping then .poll (a + 1) else .free)

/-- Lots, tokens, the store and the claims are as they were. -/
def CustodyKept (s t : State) : Prop := t.pool = s.pool ∧ t.hold = s.hold ∧ t.store = s.store ∧ t.claims = s.claims

/-- Zones, the dose engine, fences, lots, tokens, the store, the claims and the time are as they were. -/
def BeyondFieldKept (s t : State) : Prop := t = { s with coord := t.coord, trunk := t.trunk }

/-- An answer to a scanner waits in the pending answer list or is on the line (R17, R18). -/
def ScannerAnswered (t : State) (a : Nat) (r : ScanReply) : Prop :=
  (a, r) ∈ t.coord.answers ∨ t.coord.line = .sending a r

/-- The store controller holds a record that has been admitted and not yet programmed. -/
def Buffered (t : State) (r : Record) : Prop := r ∈ t.store.buffered

/-- Of everything but the store controller only these change: the field line with the scanner answers and scanner records,
the wait of a RAISE for its record, the outbound queue and the trunk line, and the stalled engine's retry bit. The bytes of
the array stay. What an event adds by settling the store (R126 to R136) is of this kind. -/
def BeyondStoreKept (s t : State) : Prop :=
  t = { s with
      coord := t.coord, store := t.store, trunk := t.trunk
      dose := { s.dose with retry := t.dose.retry }, claims := { s.claims with raise := t.claims.raise } }
    ∧ t.store.mem = s.store.mem
    ∧ t.coord = { s.coord with
        nodes := t.coord.nodes, line := t.coord.line, answers := t.coord.answers, discarded := t.coord.discarded }
    ∧ (∀ a, (t.node a).entry = (s.node a).entry ∧ (t.node a).liveness = (s.node a).liveness
      ∧ (t.node a).miss = (s.node a).miss ∧ (t.node a).box = (s.node a).box)
    ∧ t.trunk.settings = s.trunk.settings ∧ t.trunk.unsynced = s.trunk.unsynced ∧ t.trunk.pause = s.trunk.pause

/-- The first HISTORY block after the head in ring order (R132). -/
def FirstHistory (st : Store) (c : Nat) : Prop :=
  ∃ d, 1 ≤ d ∧ d ≤ 64 ∧ c = (st.headPage / 16 + d) % 64 ∧ (st.block c).content = .history
    ∧ ∀ e, 1 ≤ e → e < d → (st.block ((st.headPage / 16 + e) % 64)).content ≠ .history

/-- The test of R132 has been made on `st`, which has no candidate, and `after` is as it leaves the candidate: with fewer than 3
ERASED blocks the oldest HISTORY block, where it is USABLE, with its pinned records as the carry due, and none otherwise. -/
def CandidateChosen (st after : Store) : Prop :=
  (3 ≤ st.erasedBlocks → after.candidate = none)
  ∧ (st.erasedBlocks < 3 →
    (∀ c, FirstHistory st c → (st.block c).retired = false →
      after.candidate = some c ∧ after.copies = [] ∧ after.carryDue = st.pins.countP (fun p => st.blockOf p.seq == some c))
    ∧ ((∀ c, ¬ FirstHistory st c) → after.candidate = none))

/-- The store of `s` has become DEGRADED (R129, R130): the buffers are empty, candidate, carry and hold are gone, a program or
erase in flight has ended, the numbering, the pins and the reserved count stay, every buffered record has gone out in order as a
RECORD marked NOT_STORED and is no longer in history, and a commit that waited for one has its NOT_STORED answer (R112). -/
def WentDegraded (s t : State) : Prop :=
  t.store.status = .degraded ∧ t.store.buffered = [] ∧ t.store.fill = none ∧ t.store.closed = none ∧ t.store.program = none
  ∧ t.store.candidate = none ∧ t.store.copies = [] ∧ t.store.carryDue = 0 ∧ t.store.carryBuf = none ∧ t.store.hold = false
  ∧ (∀ op, t.store.flight = some op → ∃ r b, op = .read r b)
  ∧ t.store.nextSeq = s.store.nextSeq ∧ t.store.lastChain = s.store.lastChain ∧ t.store.pins = s.store.pins
  ∧ t.store.reserved = s.store.reserved
  ∧ (∀ r rest, s.store.buffered = r :: rest → ∀ n, r.seq ≤ n → t.store.inHistory n = false)
  ∧ (s.store.reads = [] →
    t.trunk = s.store.buffered.foldl (fun k r => (k.join (.record .notStored r)).transmit) s.trunk)
  ∧ ∀ (a n : Nat) (r : ScannerRecord) (c : LastCommit) (f : Figures), 1 ≤ a → a ≤ 31 →
    (s.node a).scanner = some r → r.lastCommit = some c → c.seq = some n → c.answer = none → c.figures = some f →
    (∃ q ∈ s.store.buffered, q.seq = n) →
    (∀ b r₂ c₂, 1 ≤ b → b ≤ 31 → b ≠ a → (s.node b).scanner = some r₂ → r₂.lastCommit = some c₂ → c₂.seq ≠ some n) →
    (t.node a).scanner = some { r with lastCommit := some { c with answer := some (.notStored n f), stored := false } }
    ∧ ((s.node a).outstanding = .awaited → (s.node a).liveness = .present → ScannerAnswered t a ⟨c.id, .notStored n f⟩)

/-- One record has been admitted to `s` (R123): the numbering and the chain go on from it, and a store controller that is
not DEGRADED holds it. -/
def Admitted (s t : State) (body : RecordBody) : Prop :=
  t.store.nextSeq = s.store.nextSeq + 1 ∧ t.store.lastChain = (s.makeRecord body).chain
    ∧ (t.store.status ≠ .degraded → Buffered t (s.makeRecord body))

/-- Records of these bodies, and no other, have been admitted to `s` in turn, each numbered and chained behind the one before it
(R122, R123); a store controller that is not DEGRADED holds them. -/
def AdmittedAll : State → State → List RecordBody → Prop
  | s, t, [] => t.store.nextSeq = s.store.nextSeq ∧ t.store.lastChain = s.store.lastChain
  | s, t, body :: rest =>
    (t.store.status ≠ .degraded → Buffered t (s.makeRecord body))
      ∧ AdmittedAll
          { s with store := { s.store with nextSeq := s.store.nextSeq + 1, lastChain := (s.makeRecord body).chain } } t rest

/-- The trunk controller has taken an ANSWER and nothing else (R169, R178, R179). -/
def AnsweredAlone (s t : State) (tag kind : Byte) (code : Code) (vals : List Val) : Prop :=
  t.trunk = (s.trunk.join (.answer tag kind code vals)).transmit

/-! ## What a state shows -/

/-- `v` is the value of a probe of the zone that qualifies (R27). -/
def Qualifies (s : State) (z : Nat) (v : Int) : Prop :=
  ∃ a e b, 1 ≤ a ∧ a ≤ 31 ∧ (s.node a).entry = some e ∧ e.role = .probe ∧ e.zone = some z ∧ (s.node a).box = .probe b
    ∧ b.fresh = true ∧ b.fault = false ∧ b.stale = false ∧ b.value = some v

/-- The address has an enrolled node of the role in the zone (R5). -/
def Enrolled (s : State) (z : Nat) (role : Role) (a : Nat) : Prop :=
  1 ≤ a ∧ a ≤ 31 ∧ ∃ e, (s.node a).entry = some e ∧ e.role = role ∧ e.zone = some z

/-- A door of the zone, with its mailbox. -/
def DoorOf (s : State) (z a : Nat) (b : DoorBox) : Prop := Enrolled s z .door a ∧ (s.node a).box = .door b

/-- The unit controller of the zone, the only one, with its mailbox. -/
def UnitOf (s : State) (z a : Nat) (b : UnitBox) : Prop :=
  Enrolled s z .unit a ∧ (s.node a).box = .unit b ∧ ∀ c, Enrolled s z .unit c → c = a

/-- A door of the zone has changed to OPEN, the earliest of them at time `c` (R29). -/
def FirstOpened (s : State) (z c : Nat) : Prop :=
  (∃ a b, DoorOf s z a b ∧ b.changed = true ∧ b.state = .opened ∧ b.changeTime = some c)
  ∧ ∀ a b, DoorOf s z a b → b.changed = true → b.state = .opened → c ≤ b.changeTime.getD 0

/-- The trunk controller has been offered one ALARM of the zone and nothing else (R40, R41): its fields are those of the zone
and the nodes as `t` has them, with the notice time and the two sets given. The order of the SILENT probes is the model's choice
(log entry 46). -/
def AlarmSent (before after : Trunk) (t : State) (z time : Nat) (raised cleared : AlarmSet) : Prop :=
  ∃ silent : List Nat,
    after = (before.join (.alarm
      { zone := z, time := time, epoch := before.settings.epoch, unsynced := before.unsynced
        defrost := (t.zone z).defrost.isSome, alarms := (t.zone z).alarms, raised := raised, cleared := cleared
        state := (t.zone z).state, latest := (t.zone z).latest, silent := silent })).transmit
    ∧ silent.Pairwise (· < ·)
    ∧ ∀ a, a ∈ silent ↔ (t.zone z).alarms.zoneBlind = true ∧ (t.node a).liveness = .silent ∧ Enrolled t z .probe a

/-- The entry `e` is the one on board that carries the consignment id (R98). -/
def Carries (s : State) (id : ConsId) (e : Nat) : Prop :=
  e < 64 ∧ ∀ x, x < 64 → ((s.lot x).state ≠ .free ∧ (s.lot x).id = id ↔ x = e)

/-- No entry on board carries the consignment id. -/
def NotOnBoard (s : State) (id : ConsId) : Prop := ∀ x, x < 64 → ¬ ((s.lot x).state ≠ .free ∧ (s.lot x).id = id)

/-! ## Scanner requests and closings -/

/-- A scanner with a scanner record `r` and no outstanding request has the open poll exchange. -/
def ScannerPolled (s : State) (a : Nat) (r : ScannerRecord) : Prop :=
  s.time.vdd = true ∧ 1 ≤ a ∧ a ≤ 31 ∧ s.coord.line = .poll a ∧ (s.node a).outstanding = .clear
    ∧ (s.node a).scanner = some r ∧ ∃ e, (s.node a).entry = some e ∧ e.role = .scanner

/-- What a scanner's exchange leaves of the coordinator, when it is not the last of the sweep: the scanner is PRESENT, the
others are as they were, and the next address is polled next. A wake request may move the sweep timer (R3). -/
def ScannerTurn (s t : State) (a : Nat) : Prop :=
  t.coord = { s.coord with
      nodes := t.coord.nodes, line := t.coord.line, answers := t.coord.answers, discarded := t.coord.discarded
      timer := t.coord.timer, owed := t.coord.owed, nextAddress := a + 1 }
    ∧ (t.node a).entry = (s.node a).entry ∧ (t.node a).box = (s.node a).box ∧ (t.node a).liveness = .present
    ∧ (t.node a).miss = 0 ∧ ∀ b, b ≠ a → NodeKept s t b

/-- The token of a committed lot is ready for its closing event (R109): its fence is clear, and the store controller is
admitting records. -/
def ClosingReady (s : State) (k : Nat) (u : TokenUse) (c : CommitField) : Prop :=
  s.time.vdd = true ∧ k < 4 ∧ s.token k = some u ∧ u.commit = some c ∧ u.entry < 64 ∧ 1 ≤ u.scanner ∧ u.scanner ≤ 31
    ∧ (∃ f, s.fenceOf (.commit k) = some f ∧ f.item = none ∧ f.forcedWait = false)
    ∧ s.store.status ≠ .locate ∧ s.store.hold = false

/-- The body of the HANDOVER record of a lot as it stands (R110, R207). -/
def handoverOf (l : Lot) (e : Nat) (c : CommitField) (threshold dropped : Bool) : RecordBody :=
  .handover l.id e l.zone l.profile c.refuse c.reason l.marks threshold dropped l.quantity c.recipient l.custodyStart
    l.asOf l.dose l.seconds l.peak l.lastTemp l.bands l.doorOpenings l.doorSeconds

/-- A list of at most 8 entries with one more at its tail; of nine, the oldest after the first goes (R86, R149). -/
def joinedList {α : Type} (l : List α) (x : α) : List α := if l.length < 8 then l ++ [x] else l.take 1 ++ l.drop 2 ++ [x]

/-- The body of the EXCURSION record that closing the lot's run makes: one for a run above 300 s, of the band of its length (R57,
R61). -/
def excursionDue (l : Lot) : List RecordBody :=
  match l.run with
  | none => []
  | some r =>
    if r.length ≤ 300 then []
    else [.excursion l.id l.zone l.profile (if r.length ≤ 900 then 3 else if r.length ≤ 3600 then 4 else 5) r l.dose]

/-- The lot's account with its run closed, `n` the number of the EXCURSION record where one is made (R61, R86, R110). -/
def accountClosed (l : Lot) (n : Nat) : Lot :=
  match l.run with
  | none => l
  | some r => { l with
      run := none
      bands := if r.length ≤ 60 then { l.bands with b1 := min 255 (l.bands.b1 + 1) }
        else if r.length ≤ 300 then { l.bands with b2 := min 255 (l.bands.b2 + 1) }
        else if r.length ≤ 900 then { l.bands with b3 := min 255 (l.bands.b3 + 1) }
        else if r.length ≤ 3600 then { l.bands with b4 := min 255 (l.bands.b4 + 1) }
        else { l.bands with b5 := min 255 (l.bands.b5 + 1) }
      evidence := if r.length ≤ 300 then l.evidence else joinedList l.evidence n
      marks := { l.marks with trimmed := l.marks.trimmed || decide (300 < r.length ∧ 8 ≤ l.evidence.length) } }

/-- The lot's evidence as its account closes, each number with its origin (R145). A number that the EXCURSION record has pushed
out is pinned by the lot no more (R86). -/
def namedEvidence (s : State) (l : Lot) (n : Nat) : List Named :=
  let pins := if excursionDue l = [] ∨ l.evidence.length < 8 then s.store.pins else pinRemove (l.evidence.getD 1 0) s.store.pins
  (accountClosed l n).evidence.map (fun m => ⟨m, ({ s.store with pins := pins } : Store).originOf m⟩)

/-- The lot's dose threshold is reached against its profile as it stands (R63). -/
def DoseDue (s : State) (l : Lot) : Prop :=
  0 < (s.profile l.profile).claimDose ∧ (s.profile l.profile).claimDose * 960 ≤ l.dose

/-! ## The scan of a cold start -/

/-- The record `r` in slot `k` of block `b` follows the record `p` (R140): its number is one more, and its chain value is that of
R122 over its bytes, seeded with the chain value of `p`. -/
def Follows (m : Mem) (b k : Nat) (p r : Record) : Prop :=
  r.seq = p.seq + 1 ∧ r.chain = chainCrc p.chain ((slotAt m b k).take 60)

/-- The slots of block `b` before slot `e` are accepted (R140): `slot k` is the record of slot `k`, none where the slot is void
and passed over; `first` is the anchor, `last` the last accepted, and each record follows the one accepted before it. -/
structure HistoryUpTo (m : Mem) (b e : Nat) (slot : Nat → Option Record) (first last : Record) : Prop where
  anchor : slot 0 = some first
  holds : ∀ k, k < e → Slot.ofBytes (slotAt m b k) = match slot k with
    | some r => .record r
    | none => .void
  follow : ∀ j k p r, j < k → k < e → slot j = some p → slot k = some r → (∀ i, j < i → i < k → slot i = none) → Follows m b k p r
  newest : ∃ j, j < e ∧ slot j = some last ∧ ∀ i, j < i → i < e → slot i = none

/-- Slot `e` ends the history: it is erased, or the block is at its end (R140). -/
def HistoryEnds (m : Mem) (b e : Nat) : Prop := e = 128 ∨ e < 128 ∧ Slot.ofBytes (slotAt m b e) = .erased

/-- Slot `e` fails (R140): neither void nor erased, it is no well-formed record or one that does not follow `last`. -/
def SlotFails (m : Mem) (b e : Nat) (last : Record) : Prop :=
  e < 128 ∧ (Slot.ofBytes (slotAt m b e) = .bad
    ∨ ∃ r, Slot.ofBytes (slotAt m b e) = .record r ∧ ¬ Follows m b e last r)

/-- Slot `k` of block `b` is torn, `e` the first slot that fails (R140). -/
def TornFrom (m : Mem) (b e k : Nat) : Prop :=
  e ≤ k ∧ k < 128 ∧ Slot.ofBytes (slotAt m b k) ≠ .erased ∧ Slot.ofBytes (slotAt m b k) ≠ .void

/-- Block `c` of the array is the first ERASED block after block `b` in ring order (R131, R140). -/
def FirstErasedAfter (m : Mem) (b c : Nat) : Prop :=
  ∃ d, 1 ≤ d ∧ d < 64 ∧ c = (b + d) % 64 ∧ Slot.ofBytes (slotAt m c 0) = .erased
    ∧ ∀ i, 1 ≤ i → i < d → Slot.ofBytes (slotAt m ((b + i) % 64) 0) ≠ .erased

/-- The head that was in block `b` resumes at `page` (R140): the first page after the last of the block that is not wholly
erased, or, with none left in the block, page 0 of the first ERASED block after it. -/
def HeadResumes (m : Mem) (b page : Nat) : Prop :=
  ∃ p, p < 16 ∧ (∃ a, 512 * (16 * b + p) ≤ a ∧ a < 512 * (16 * b + p) + 512 ∧ memRead m a ≠ 0xFF#8)
    ∧ (∀ a, 512 * (16 * b + p) + 512 ≤ a → a < 8192 * b + 8192 → memRead m a = 0xFF#8)
    ∧ if p < 15 then page = 16 * b + p + 1 else ∃ c, FirstErasedAfter m b c ∧ page = 16 * c

/-- Block `c` is ERASED and lies last in the erased run ahead of block `h`, which the oldest history ends (R131, R140). -/
def LastOfErasedRun (m : Mem) (h c : Nat) : Prop :=
  ∃ d, 1 ≤ d ∧ d < 64 ∧ c = (h + d) % 64 ∧ Slot.ofBytes (slotAt m c 0) = .erased
    ∧ (∀ i r, 1 ≤ i → i ≤ d → Slot.ofBytes (slotAt m ((h + i) % 64) 0) ≠ .record r)
    ∧ ∀ j, d < j → j < 64 → Slot.ofBytes (slotAt m ((h + j) % 64) 0) = .erased →
        ∃ i r, d < i ∧ i < j ∧ Slot.ofBytes (slotAt m ((h + i) % 64) 0) = .record r

/-- The blocks that the scan of the array finds RETIRED (R139). -/
def foundRetired (m : Mem) : Nat :=
  (List.range 64).countP fun b => match Slot.ofBytes (slotAt m b 0) with
    | .erased | .record _ => false
    | .void | .bad => true

/-- The store of `s`, with array `m`, has resumed as `t` behind the record `last` (R140, R141): the numbering and the chain go on
from that record with the START record, which gives the torn count and the blocks, and the rebuild begins. -/
def ResumedBehind (m : Mem) (s t : State) (last : Record) (torn : Nat) : Prop :=
  t.store.status = .rebuild ∧ t.store.nextSeq = last.seq + 2 ∧ t.store.torn = torn ∧ t.claims.rebuild = .claimPass 0
    ∧ ∃ r : Record, t.store.buffered = [r] ∧ r.seq = last.seq + 1 ∧ r.kind = 1 ∧ r.originChain = last.chain
      ∧ t.store.lastChain = r.chain
      ∧ r.fields = padTo 35 (RecordBody.bytes s.time.now (.start true torn t.store.usableBlocks (foundRetired m)))

end Sys2Proof
end

