-- ==== Sys2Proof/Certificates/Slice0/Obligations.lean ====
section
/-! DEFINITION. The statements for the provers: one `def Obligations.<Name> : Prop` each. -/

open Sys2Proof Sys2Proof.Machine

/-! ## The step -/

/-- The front command's effect, with the queue's rest; on an empty queue the part idles (log entry 12). -/
def Obligations.StepTakesFrontCommand : Prop :=
  (∀ (c : Instr) (rest : List Instr) (s : State), step (s.withPending (c :: rest)) = exec c (s.withPending rest))
    ∧ ∀ s : State, s.pending = [] → step s = .next s

/-! ## The field line (spec/01) -/

/-- A field telegram outside its poll exchange is dropped and counted, and so is one that fails the link conditions, inside
an exchange too, which it does not end (R1). A trunk telegram whose header is not readable is dropped and counted (R167). A
scanner request while one is outstanding is dropped and counted as an overrun, and its exchange ends (R16). -/
def Obligations.DroppedTelegramsCounted : Prop :=
  (∀ (s : State) (src seq status state age defrost outcome reason kind : Byte) (raw : BitVec 16) (id : ConsId)
    (recipient : Word32) (body : List Byte),
    s.time.vdd = true →
    (s.coord.line ≠ .poll src.toNat →
      ∀ c ∈ [Instr.sample src seq raw status, .door src state age, .unit src defrost state, .idle src,
          .misfit src kind body, .stranger src kind body, .hold src id, .release src id,
          .commit src id recipient outcome reason],
        exec c s = .next { s with coord := { s.coord with linkErrors := min 65535 (s.coord.linkErrors + 1) } })
    ∧ exec .fieldTelegramDropped s
        = .next { s with coord := { s.coord with linkErrors := min 65535 (s.coord.linkErrors + 1) } }
    ∧ exec .inboundTelegramDropped s
        = .next { s with trunk := { s.trunk with inboundDrops := min 65535 (s.trunk.inboundDrops + 1) } })
  ∧ (∀ (s : State) (src outcome reason : Byte) (id : ConsId) (recipient : Word32) (e : NodeEntry),
    s.time.vdd = true → 1 ≤ src.toNat → src.toNat ≤ 31 → s.coord.line = .poll src.toNat →
    (s.node src.toNat).entry = some e → e.role = .scanner → (s.node src.toNat).outstanding ≠ .clear →
    ∀ c ∈ [Instr.hold src id, .release src id, .commit src id recipient outcome reason], Gives c s fun t =>
      t.coord.overruns = min 65535 (s.coord.overruns + 1) ∧ CustodyKept s t
      ∧ (t.node src.toNat).scanner = (s.node src.toNat).scanner
      ∧ (src.toNat < 31 → ScannerTurn { s with coord := { s.coord with overruns := t.coord.overruns } } t src.toNat
        ∧ t = { s with coord := t.coord }))

/-- SAMPLE in its own poll exchange, from a probe: sequence, classification and fresh value (R12), liveness (R8), the
FIELD_COPY of a forwarding node (R19) and the end of the exchange (R4). The marks of a sweep that has gone on or has ended
without another are those of R12; a sweep that starts in the same event clears them. -/
def Obligations.SampleIntake : Prop :=
  ∀ (s : State) (src seq : Byte) (raw : BitVec 16) (status : Byte) (e : NodeEntry) (b : ProbeBox),
    s.time.vdd = true → 1 ≤ src.toNat → src.toNat ≤ 31 → s.coord.line = .poll src.toNat →
    (s.node src.toNat).entry = some e → e.role = .probe → (s.node src.toNat).box = .probe b →
    Gives (.sample src seq raw status) s fun t =>
      (∃ b' : ProbeBox,
        (t.node src.toNat).box = .probe b'
        ∧ b'.lastSeq = some seq.toNat
        ∧ b'.lost = (match b.lastSeq with
          | some last => if last = seq.toNat then b.lost else min 65535 (b.lost + (((seq.toNat : Int) - last - 1) % 256).toNat)
          | none => b.lost)
        ∧ b'.value = (if b.lastSeq = some seq.toNat ∨ status ≠ 0 ∨ raw.toInt < -960 ∨ 960 < raw.toInt then b.value
          else some (max (-960) (min 960 (raw.toInt + e.offset))))
        ∧ (src.toNat < 31 ∨ t.coord.phase = .idle →
          b'.stale = (b.stale || decide (b.lastSeq = some seq.toNat))
          ∧ b'.fault = (b.fault || decide (b.lastSeq ≠ some seq.toNat ∧ (status ≠ 0 ∨ raw.toInt < -960 ∨ 960 < raw.toInt)))
          ∧ b'.fresh = (b.fresh
            || decide (b.lastSeq ≠ some seq.toNat ∧ status = 0 ∧ -960 ≤ raw.toInt ∧ raw.toInt ≤ 960))))
      ∧ (t.node src.toNat).entry = some e ∧ (t.node src.toNat).liveness = .present ∧ (t.node src.toNat).miss = 0
      ∧ CustodyKept s t
      ∧ (src.toNat < 31 → BeyondFieldKept s t ∧ ExchangeEnded s.coord t src.toNat
        ∧ (∀ a, a ≠ src.toNat → NodeKept s t a)
        ∧ t.trunk = (if e.forward then
            (s.trunk.join (.fieldCopy src.toNat 3 s.time.now (seq :: leBytes 2 raw.toNat ++ [status]))).transmit
          else s.trunk))

/-- DOOR in its own poll exchange, from a door contact: state and change time (R14), liveness (R8), the wake request of an
open door (R190) with the mode decided anew (R189), the FIELD_COPY (R19) and the end of the exchange (R4). -/
def Obligations.DoorIntake : Prop :=
  ∀ (s : State) (src state age : Byte) (e : NodeEntry) (z : Nat) (b : DoorBox) (ds : DoorState),
    s.time.vdd = true → 1 ≤ src.toNat → src.toNat ≤ 31 → s.coord.line = .poll src.toNat →
    (s.node src.toNat).entry = some e → e.role = .door → e.zone = some z → (s.node src.toNat).box = .door b →
    (state = 0 ∧ ds = .closed ∨ state = 1 ∧ ds = .opened) →
    Gives (.door src state age) s fun t =>
      (∃ b' : DoorBox,
        (t.node src.toNat).box = .door b'
        ∧ b'.state = ds
        ∧ b'.changeTime = (if b.state = ds then b.changeTime
          else some (max (max (s.time.now - age.toNat) (b.changeTime.getD 0)) (s.zone z).lastTick))
        ∧ (src.toNat < 31 ∨ t.coord.phase = .idle → b'.changed = (b.changed || decide (b.state ≠ ds))))
      ∧ (t.node src.toNat).entry = some e ∧ (t.node src.toNat).liveness = .present ∧ (t.node src.toNat).miss = 0
      ∧ CustodyKept s t
      ∧ (src.toNat < 31 →
        t = { s with coord := t.coord, trunk := t.trunk, time := t.time }
        ∧ ExchangeEnded { s.coord with timer := t.coord.timer, owed := t.coord.owed } t src.toNat
        ∧ (∀ a, a ≠ src.toNat → NodeKept s t a)
        ∧ (if ds = .opened ∧ s.trunk.settings.wakeDoor = true then
            t.time.wakeUntil = max s.time.wakeUntil (min 4294967295 (s.time.now + s.trunk.settings.wakeHold))
            ∧ t.time.lastWake = some (.door, s.time.now)
            ∧ t.time.mode = (if s.trunk.settings.depot ∨ s.trunk.settings.ignition ∨ s.time.now < t.time.wakeUntil
              then .road else .parked)
          else t.time = s.time ∧ t.coord.timer = s.coord.timer ∧ t.coord.owed = s.coord.owed)
        ∧ t.trunk = (if e.forward then (s.trunk.join (.fieldCopy src.toNat 4 s.time.now [state, age])).transmit
          else s.trunk))

/-- UNIT in its own poll exchange, from a unit controller: fault state and defrost report (R15), liveness (R8), the
FIELD_COPY (R19) and the end of the exchange (R4). The report stands where no sweep end has taken it. -/
def Obligations.UnitIntake : Prop :=
  ∀ (s : State) (src defrost state : Byte) (e : NodeEntry) (b : UnitBox),
    s.time.vdd = true → 1 ≤ src.toNat → src.toNat ≤ 31 → s.coord.line = .poll src.toNat →
    (s.node src.toNat).entry = some e → e.role = .unit → (s.node src.toNat).box = .unit b →
    defrost.toNat ≤ 2 → state.toNat ≤ 1 →
    Gives (.unit src defrost state) s fun t =>
      (∃ b' : UnitBox,
        (t.node src.toNat).box = .unit b'
        ∧ b'.fault = (if state = 1 then .fault else .ok)
        ∧ (src.toNat < 31 → b'.report = (if defrost = 1 then some ⟨true, s.time.now⟩
          else if defrost = 2 then some ⟨false, s.time.now⟩ else b.report)))
      ∧ (t.node src.toNat).entry = some e ∧ (t.node src.toNat).liveness = .present ∧ (t.node src.toNat).miss = 0
      ∧ CustodyKept s t
      ∧ (src.toNat < 31 → BeyondFieldKept s t ∧ ExchangeEnded s.coord t src.toNat
        ∧ (∀ a, a ≠ src.toNat → NodeKept s t a)
        ∧ t.trunk = (if e.forward then (s.trunk.join (.fieldCopy src.toNat 5 s.time.now [defrost, state])).transmit
          else s.trunk))

/-- IDLE and a misfit set liveness and leave the mailbox as it stands; a misfit is counted and nothing of it is kept or
forwarded (R9). A stranger joins the stranger map, is counted, and changes no liveness or mailbox (R10). An answer fits a role,
and is no misfit, as the tables of R9, R201 and R202 say: by its kind, its length, and the values of a DOOR or UNIT body. -/
def Obligations.IdleMisfitStranger : Prop :=
  (∀ (role : Role) (kind : Byte) (body : List Byte), role.fits (fieldAnswer kind body) = true ↔
    kind = 2 ∧ body.length = 0
    ∨ role = .probe ∧ kind = 3 ∧ body.length = 4
    ∨ role = .door ∧ kind = 4 ∧ (∃ state age : Byte, body = [state, age] ∧ state.toNat ≤ 1)
    ∨ role = .unit ∧ kind = 5 ∧ (∃ defrost state : Byte, body = [defrost, state] ∧ defrost.toNat ≤ 2 ∧ state.toNat ≤ 1)
    ∨ role = .scanner ∧ (kind = 6 ∨ kind = 7) ∧ body.length = 5
    ∨ role = .scanner ∧ kind = 8 ∧ body.length = 11)
  ∧ ∀ (s : State) (src kind : Byte) (body : List Byte),
    s.time.vdd = true → 1 ≤ src.toNat → src.toNat ≤ 31 → s.coord.line = .poll src.toNat →
    (∀ e, (s.node src.toNat).entry = some e →
      Gives (.idle src) s (fun t =>
          (t.node src.toNat).entry = some e ∧ (t.node src.toNat).scanner = (s.node src.toNat).scanner
          ∧ (t.node src.toNat).liveness = .present ∧ (t.node src.toNat).miss = 0
          ∧ t.coord.misfits = s.coord.misfits ∧ CustodyKept s t
          ∧ (src.toNat < 31 → BeyondFieldKept s t ∧ t.trunk = s.trunk ∧ ExchangeEnded s.coord t src.toNat
            ∧ (t.node src.toNat).box = (s.node src.toNat).box ∧ ∀ a, a ≠ src.toNat → NodeKept s t a))
      ∧ (e.role.fits (fieldAnswer kind body) = false →
        Gives (.misfit src kind body) s (fun t =>
          (t.node src.toNat).entry = some e ∧ (t.node src.toNat).scanner = (s.node src.toNat).scanner
          ∧ (t.node src.toNat).liveness = .present ∧ (t.node src.toNat).miss = 0
          ∧ t.coord.misfits = min 65535 (s.coord.misfits + 1) ∧ CustodyKept s t
          ∧ (src.toNat < 31 → BeyondFieldKept s t ∧ t.trunk = s.trunk
            ∧ ExchangeEnded { s.coord with misfits := t.coord.misfits } t src.toNat
            ∧ (t.node src.toNat).box = (s.node src.toNat).box ∧ ∀ a, a ≠ src.toNat → NodeKept s t a))))
    ∧ ((s.node src.toNat).entry = none →
      Gives (.stranger src kind body) s (fun t =>
        t.coord.strangerCount = min 65535 (s.coord.strangerCount + 1)
        ∧ (∀ a, a ∈ t.coord.strangers ↔ a = src.toNat ∨ a ∈ s.coord.strangers)
        ∧ (∀ a, (t.node a).entry = (s.node a).entry ∧ (t.node a).liveness = (s.node a).liveness
          ∧ (t.node a).miss = (s.node a).miss ∧ (t.node a).scanner = (s.node a).scanner)
        ∧ CustodyKept s t
        ∧ (src.toNat < 31 → BeyondFieldKept s t ∧ t.trunk = s.trunk
          ∧ ExchangeEnded { s.coord with strangerCount := t.coord.strangerCount, strangers := t.coord.strangers } t src.toNat
          ∧ ∀ a, NodeKept s t a)))

/-- The answer window of an exchange closes (R1): a miss at an enrolled address adds one to its miss count, to 15 at most,
and makes it SILENT at the miss limit; at any other address it has no effect (R8). The exchange of address 31 ends the sweep
(R4): with a sweep owed the next one starts at once, its timer armed from that start (R2) and the per-sweep marks cleared;
without, and with no mode change, the phase is IDLE and the timer stands. -/
def Obligations.WindowClosesAndSweepEnds : Prop :=
  (∀ (s : State) (a : Nat), s.time.vdd = true → s.coord.line = .poll a → 1 ≤ a → a ≤ 31 →
    Gives .answerWindowClose s fun t =>
      ((s.node a).entry = none →
        (t.node a).entry = none ∧ (t.node a).liveness = (s.node a).liveness ∧ (t.node a).miss = (s.node a).miss)
      ∧ (∀ e, (s.node a).entry = some e →
        (t.node a).entry = some e ∧ (t.node a).miss = min 15 ((s.node a).miss + 1)
        ∧ (t.node a).liveness = (if s.trunk.settings.missLimit ≤ min 15 ((s.node a).miss + 1) then .silent
          else (s.node a).liveness))
      ∧ CustodyKept s t
      ∧ (a < 31 → BeyondFieldKept s t ∧ t.trunk = s.trunk ∧ ExchangeEnded s.coord t a
        ∧ (t.node a).box = (s.node a).box ∧ ∀ b, b ≠ a → NodeKept s t b))
  ∧ (∀ s : State, s.time.vdd = true → s.coord.line = .poll 31 →
    Gives .answerWindowClose s fun t =>
      t.time.now = s.time.now ∧ CustodyKept s t
      ∧ (s.coord.owed = true →
        t.coord.phase = .sweeping ∧ t.coord.nextAddress = 1 ∧ t.coord.owed = false
        ∧ t.coord.lastStart = some s.time.now
        ∧ t.coord.timer = some (min 4294967295 (s.time.now
          + if t.time.mode = .road then s.trunk.settings.roadPeriod else s.trunk.settings.parkedPeriod))
        ∧ (∀ a b, (t.node a).box = .probe b → b.fresh = false ∧ b.fault = false ∧ b.stale = false)
        ∧ (∀ a b, (t.node a).box = .door b → b.changed = false)
        ∧ (s.coord.answers = [] → t.coord.line = .poll 1))
      ∧ (s.coord.owed = false → t.time.mode = s.time.mode →
        t.coord.phase = .idle ∧ t.coord.owed = false ∧ t.coord.lastStart = s.coord.lastStart
        ∧ t.coord.timer = s.coord.timer ∧ (s.coord.answers = [] → t.coord.line = .free)))

/-- The sweep timer expires (R2): while IDLE a sweep starts, its timer armed from the start with the period of the mode, and
its marks cleared (R4); while SWEEPING a sweep is owed and the timer is re-armed one period after the expiry. -/
def Obligations.SweepTimerExpires : Prop :=
  ∀ (s : State) (e : Nat), s.time.vdd = true → s.coord.timer = some e → e ≤ s.time.now →
    Gives .sweepTimerExpiry s fun t =>
      t = { s with coord := t.coord } ∧ (∀ a, (t.node a).entry = (s.node a).entry
        ∧ (t.node a).liveness = (s.node a).liveness ∧ (t.node a).miss = (s.node a).miss
        ∧ (t.node a).scanner = (s.node a).scanner)
      ∧ (s.coord.phase = .idle →
        t.coord = { s.coord with
          nodes := t.coord.nodes, line := t.coord.line, answers := t.coord.answers, discarded := t.coord.discarded
          phase := .sweeping, nextAddress := 1, lastStart := some s.time.now
          timer := some (min 4294967295 (s.time.now
            + if s.time.mode = .road then s.trunk.settings.roadPeriod else s.trunk.settings.parkedPeriod)) }
        ∧ (∀ a b, (s.node a).box = .probe b →
          (t.node a).box = .probe { b with fresh := false, fault := false, stale := false })
        ∧ (∀ a b, (s.node a).box = .door b → (t.node a).box = .door { b with changed := false })
        ∧ (s.coord.line = .free → s.coord.answers = [] → t.coord.line = .poll 1))
      ∧ (s.coord.phase = .sweeping →
        t.coord = { s.coord with
          owed := true
          timer := some (min 4294967295 (e
            + if s.time.mode = .road then s.trunk.settings.roadPeriod else s.trunk.settings.parkedPeriod)) })

/-- A SCAN_ANSWER has been sent (R18): the scanner's outstanding request is cleared, and the arbiter grants the line to the
oldest pending answer, discarding and counting it when its scanner is SILENT, then to the poll of the next address, and
otherwise leaves it free. -/
def Obligations.ScanAnswerSentGrants : Prop :=
  ∀ (s : State) (a : Nat) (r : ScanReply), s.time.vdd = true → s.coord.line = .sending a r → 1 ≤ a → a ≤ 31 →
    Gives .scanAnswerSent s fun t =>
      t = { s with coord := t.coord } ∧ (∀ b, NodeKept s t b) ∧ (t.node a).outstanding = .clear
      ∧ t.coord = { s.coord with
          nodes := t.coord.nodes, line := t.coord.line, answers := t.coord.answers, discarded := t.coord.discarded }
      ∧ (s.coord.answers = [] →
        t.coord.answers = [] ∧ t.coord.discarded = s.coord.discarded
        ∧ t.coord.line = if s.coord.phase = .sweeping then .poll s.coord.nextAddress else .free)
      ∧ (∀ b q rest, s.coord.answers = (b, q) :: rest → (s.node b).liveness ≠ .silent →
        t.coord.answers = rest ∧ t.coord.line = .sending b q ∧ t.coord.discarded = s.coord.discarded)
      ∧ (∀ b q, s.coord.answers = [(b, q)] → 1 ≤ b → b ≤ 31 → (s.node b).liveness = .silent →
        t.coord.answers = [] ∧ t.coord.discarded = min 65535 (s.coord.discarded + 1)
        ∧ (t.node b).outstanding = .clear
        ∧ t.coord.line = if s.coord.phase = .sweeping then .poll s.coord.nextAddress else .free)

/-- LOAD_NODE (R6, R7): the first failing check refuses it with its code and nothing else changes; an accepted one replaces
the entry and all that is kept beside it, takes the address from the stranger map and the pending answers, releases a hold of
the scanner it removes, and answers OK, or CLAMPED when the offset was clamped, with the entry as loaded. The layout of the
answer's fields is log entry 9. -/
def Obligations.LoadNodeAnswered : Prop :=
  ∀ (s : State) (tag address enrolled code zone offset forward : Byte), s.time.vdd = true →
    let a := address.toNat
    let closing := ∃ r k u, (s.node a).scanner = some r ∧ r.token = some k ∧ s.token k = some u ∧ (s.lot u.entry).state = .closing
    let load := Instr.loadNode tag address enrolled code zone offset forward
    -- refused, with the first failing check's code
    ((a < 1 ∨ 31 < a) → exec load s = .next (s.answer tag 34 .badAddress []))
    ∧ (1 ≤ a → a ≤ 31 →
      (enrolled ≠ 0 → (code.toNat < 1 ∨ 4 < code.toNat) → exec load s = .next (s.answer tag 34 .badRole []))
      ∧ (enrolled = 0 → closing → exec load s = .next (s.answer tag 34 .busy []))
      ∧ (enrolled = 0 → ¬ closing → Gives load s fun t =>
        t.node a = ⟨none, .unknown, 0, .none, none, .clear⟩
        ∧ a ∉ t.coord.strangers ∧ (∀ b, b ≠ a → (b ∈ t.coord.strangers ↔ b ∈ s.coord.strangers))
        ∧ (∀ p ∈ t.coord.answers, p.1 ≠ a)
        ∧ t.trunk = (s.trunk.join (.answer tag 34 .ok [Val.flag false])).transmit
        ∧ t.zones = s.zones ∧ t.dose = s.dose ∧ t.fences = s.fences ∧ t.store = s.store ∧ t.claims = s.claims
        ∧ t.time = s.time
        ∧ ((∀ r, (s.node a).scanner = some r → r.token = none) →
          t.pool = s.pool ∧ t.hold = s.hold ∧ ∀ b, b ≠ a → t.node b = s.node b)
        ∧ ∀ r k u, (s.node a).scanner = some r → r.token = some k → k < 4 → s.token k = some u → u.entry < 64 →
          t.token k = none ∧ (t.lot u.entry).state = .resident ∧ (t.lot u.entry).token = none)
      ∧ ∀ (role : Role) (most : Nat),
        (code = 1 ∧ role = .probe ∧ most = 3 ∨ code = 2 ∧ role = .door ∧ most = 2 ∨ code = 3 ∧ role = .unit ∧ most = 1
          ∨ code = 4 ∧ role = .scanner ∧ most = 31) →
        enrolled ≠ 0 →
        let others := (s.nodesOf role zone.toNat).filter (fun b => b != a)
        (role ≠ .scanner → (zone.toNat < 1 ∨ 8 < zone.toNat) → exec load s = .next (s.answer tag 34 .badZone []))
        ∧ (role ≠ .scanner → 1 ≤ zone.toNat → zone.toNat ≤ 8 → most ≤ others.length →
          exec load s = .next (s.answer tag 34 .zoneFull []))
        ∧ ((role = .scanner ∨ 1 ≤ zone.toNat ∧ zone.toNat ≤ 8 ∧ others.length < most) →
          (closing → exec load s = .next (s.answer tag 34 .busy []))
          -- accepted
          ∧ (¬ closing → Gives load s fun t =>
            let o := max (-32) (min 31 offset.toInt)
            let e : NodeEntry := ⟨role, if role = .scanner then none else some zone.toNat, o, forward != 0⟩
            t.node a = { entry := some e, liveness := .unknown, miss := 0
                         box := (match role with
                           | .probe => .probe .empty
                           | .door => .door .empty
                           | .unit => .unit .empty
                           | .scanner => .none)
                         scanner := if role = .scanner then some .empty else none
                         outstanding := .clear }
            ∧ a ∉ t.coord.strangers ∧ (∀ b, b ≠ a → (b ∈ t.coord.strangers ↔ b ∈ s.coord.strangers))
            ∧ (∀ p ∈ t.coord.answers, p.1 ≠ a)
            ∧ t.trunk = (s.trunk.join (.answer tag 34 (if o = offset.toInt then .ok else .clamped)
              [Val.flag true, Val.num 1 code.toNat, Val.num 1 (e.zone.getD 0), Val.num 1 (o % 256).toNat,
                Val.flag e.forward])).transmit
            ∧ t.zones = s.zones ∧ t.dose = s.dose ∧ t.fences = s.fences ∧ t.store = s.store ∧ t.claims = s.claims
            ∧ t.time = s.time
            ∧ ((∀ r, (s.node a).scanner = some r → r.token = none) →
              t.pool = s.pool ∧ t.hold = s.hold ∧ ∀ b, b ≠ a → t.node b = s.node b)
            ∧ ∀ r k u, (s.node a).scanner = some r → r.token = some k → k < 4 → s.token k = some u → u.entry < 64 →
              t.token k = none ∧ (t.lot u.entry).state = .resident ∧ (t.lot u.entry).token = none)))

/-- RESTART of form FIELD (R182, R22): every address is UNKNOWN with an empty mailbox and no outstanding request, but keeps
its entry, its scanner record and a probe's lost count; the open exchange and the running sweep are abandoned, and a new
sweep starts. Nothing beyond the coordinator changes but for the ANSWER. That a SCAN_ANSWER on the line is completed is the
model's reading (log entry 40). -/
def Obligations.RestartFieldResetsCoordinator : Prop :=
  ∀ (s : State) (tag : Byte), s.time.vdd = true →
    Gives (.restartField tag 2) s fun t =>
      BeyondFieldKept s t
      ∧ t.trunk = (s.trunk.join (.answer tag 45 .ok [])).transmit
      ∧ t.coord = { s.coord with
          nodes := t.coord.nodes, line := t.coord.line, answers := [], phase := .sweeping, nextAddress := 1
          lastStart := some s.time.now, owed := false
          timer := some (min 4294967295 (s.time.now
            + if s.time.mode = .road then s.trunk.settings.roadPeriod else s.trunk.settings.parkedPeriod)) }
      ∧ t.coord.line = (match s.coord.line with
        | .sending a r => .sending a r
        | _ => .poll 1)
      ∧ ∀ a, 1 ≤ a → a ≤ 31 →
        (t.node a).entry = (s.node a).entry ∧ (t.node a).scanner = (s.node a).scanner
        ∧ (t.node a).liveness = .unknown ∧ (t.node a).miss = 0 ∧ (t.node a).outstanding = .clear
        ∧ (∀ b, (s.node a).box = .probe b → (t.node a).box = .probe { ProbeBox.empty with lost := b.lost })
        ∧ (∀ b, (s.node a).box = .door b → (t.node a).box = .door .empty)
        ∧ (∀ b, (s.node a).box = .unit b → (t.node a).box = .unit .empty)
        ∧ ((s.node a).box = .none → (t.node a).box = .none)

/-! ## Zones (spec/02) -/

/-- At a sweep end a zone that is IN takes its reading and state from its qualifying probes: the highest value makes it
WATCHED, and with none it is BLIND or UNSEEN by whether it has a last valid reading (R27). Its open door set takes the doors
that changed to OPEN and loses those that closed or are no longer its doors, its union is OPEN while the set holds one, since
the earliest change that opened it, and the door count time moves on (R29, R30); a START report turns defrost ON since its time
where it was OFF, an END report turns it OFF, and the report is taken (R31). A zone that is OUT is left as it stands, but for
the defrost report of its unit, which is taken and discarded (R26). -/
def Obligations.ZoneAtSweepEnd : Prop :=
  (∀ (s : State) (z : Nat), s.time.vdd = true → s.coord.line = .poll 31 → 1 ≤ z → z ≤ 8 → (s.zone z).inService = true →
    Gives .answerWindowClose s fun t =>
      (∀ m, Qualifies s z m → (∀ v, Qualifies s z v → v ≤ m) →
        (t.zone z).state = .watched ∧ (t.zone z).lastValid = some m ∧ (t.zone z).latest = some m)
      ∧ ((∀ v, ¬ Qualifies s z v) →
        (t.zone z).latest = none ∧ (t.zone z).lastValid = (s.zone z).lastValid
        ∧ (t.zone z).state = if (s.zone z).lastValid = none then .unseen else .blind)
      ∧ (t.zone z).inService = true ∧ (t.zone z).limit = (s.zone z).limit ∧ (t.zone z).delay = (s.zone z).delay
      ∧ (t.zone z).inServiceTime = (s.zone z).inServiceTime
      -- the open door set and the union
      ∧ (∀ a, ¬ Enrolled s z .door a → a ∉ (t.zone z).openDoors)
      ∧ (∀ a b, DoorOf s z a b →
        (b.changed = true → b.state = .opened → a ∈ (t.zone z).openDoors)
        ∧ (b.changed = true → b.state = .closed → a ∉ (t.zone z).openDoors)
        ∧ ((b.changed = false ∨ b.state = .unknown) → (a ∈ (t.zone z).openDoors ↔ a ∈ (s.zone z).openDoors)))
      ∧ (t.zone z).doorCount = s.time.now
      ∧ (((s.zone z).union = none ↔ (s.zone z).openDoors = []) → ((t.zone z).union = none ↔ (t.zone z).openDoors = []))
      ∧ (∀ a b, a ∈ (s.zone z).openDoors → DoorOf s z a b → (b.changed = true → b.state = .opened) →
        (t.zone z).union = (s.zone z).union)
      ∧ (∀ c, (s.zone z).openDoors = [] → FirstOpened s z c → (t.zone z).union = some c)
      -- defrost
      ∧ ((∀ a, ¬ Enrolled s z .unit a) → (t.zone z).defrost = (s.zone z).defrost)
      ∧ ∀ a b, UnitOf s z a b →
        (t.node a).box = .unit { b with report := none }
        ∧ (b.report = none → (t.zone z).defrost = (s.zone z).defrost)
        ∧ ∀ r, b.report = some r →
          (r.start = true → (t.zone z).defrost = some ((s.zone z).defrost.getD r.time))
          ∧ (r.start = false → (t.zone z).defrost = none))
  ∧ (∀ (s : State) (z : Nat), s.time.vdd = true → s.coord.line = .poll 31 → 1 ≤ z → z ≤ 8 → (s.zone z).inService = false →
    (s.zone z).pending = none →
    Gives .answerWindowClose s fun t =>
      t.zone z = s.zone z
      ∧ ∀ a e b, 1 ≤ a → a ≤ 31 → (s.node a).entry = some e → e.role = .unit → e.zone = some z → (s.node a).box = .unit b →
        (∀ c f, 1 ≤ c → c ≤ 31 → (s.node c).entry = some f → f.role = .unit → f.zone = some z → c = a) →
        (t.node a).box = .unit { b with report := none })

/-- The alarm kinds of a zone that is IN after a sweep end, from the zone as that sweep end leaves it: TEMP_HIGH with its
since time, the alarm delay and the defrost allowance (R36), DOOR_HELD (R37), ZONE_BLIND (R38), UNIT_FAULT (R39). -/
def Obligations.AlarmKindsAtSweepEnd : Prop :=
  ∀ (s : State) (z : Nat), s.time.vdd = true → s.coord.line = .poll 31 → 1 ≤ z → z ≤ 8 → (s.zone z).inService = true →
    Gives .answerWindowClose s fun t =>
      let old := (s.zone z).alarms
      let new := (t.zone z).alarms
      let since := (s.zone z).aboveSince.getD s.time.now
      let suppressed := ∃ d, (t.zone z).defrost = some d
        ∧ s.time.now < min 4294967295 (d + s.trunk.settings.defrostAllowance)
      -- TEMP_HIGH
      (∀ v, (t.zone z).latest = some v → (s.zone z).limit < v →
        (t.zone z).aboveSince = some since
        ∧ (new.tempHigh = true ↔ old.tempHigh = true ∨ ((s.zone z).delay ≤ s.time.now - since ∧ ¬ suppressed)))
      ∧ (∀ v, (t.zone z).latest = some v → v ≤ (s.zone z).limit → (t.zone z).aboveSince = none ∧ new.tempHigh = false)
      ∧ ((t.zone z).latest = none → (t.zone z).aboveSince = (s.zone z).aboveSince ∧ new.tempHigh = old.tempHigh)
      -- DOOR_HELD
      ∧ ((t.zone z).union = none → new.doorHeld = false)
      ∧ (∀ d, (t.zone z).union = some d →
        (new.doorHeld = true ↔ old.doorHeld = true ∨ s.trunk.settings.doorHeldLimit < s.time.now - d))
      -- ZONE_BLIND
      ∧ ((t.zone z).state = .watched → new.zoneBlind = false)
      ∧ ((t.zone z).state = .blind → new.zoneBlind = true)
      ∧ ((t.zone z).state = .unseen → (new.zoneBlind = true ↔ old.zoneBlind = true
        ∨ (s.zoneList z ≠ [] ∧ ∃ b, s.coord.lastStart = some b ∧ (s.zone z).inServiceTime ≤ b)))
      -- UNIT_FAULT
      ∧ ((∀ a e, 1 ≤ a → a ≤ 31 → (s.node a).entry = some e → ¬ (e.role = .unit ∧ e.zone = some z)) → new.unitFault = false)
      ∧ ∀ a e b, 1 ≤ a → a ≤ 31 → (s.node a).entry = some e → e.role = .unit → e.zone = some z → (s.node a).box = .unit b →
        (∀ c f, 1 ≤ c → c ≤ 31 → (s.node c).entry = some f → f.role = .unit → f.zone = some z → c = a) →
        new.unitFault = match b.fault with
          | .fault => true
          | .ok => false
          | .unknown => old.unitFault

/-- The tick of a zone at a time is formed from its record (R28, R32) and submitted, held or merged (R33). With no time gone
since the last tick none is formed. That merged openings stay at 65,535 is the model's choice (log entry 47). At a sweep end
the tick of an IN zone carries the open seconds and openings of its door union up to that time (R29, R30) and the kind of
the zone as the sweep end leaves it. -/
def Obligations.TickSubmittedOrHeld : Prop :=
  (∀ (s : State) (z now : Nat), 1 ≤ z → z ≤ 8 →
    let r := s.zone z
    let u := s.tickZone z now
    let emptied := { r with openSeconds := 0, openings := 0 }
    let tick : Tick :=
      { zone := z, time := now, span := min 3600 (now - r.lastTick), gap := decide (3600 < now - r.lastTick)
        openSeconds := min r.openSeconds (min 3600 (now - r.lastTick)), openings := r.openings
        kind := r.tickKind s.trunk.settings.blindPenalty }
    (r.state = .watched → ∀ v, r.latest = some v → tick.kind = .watched v)
    ∧ (r.state = .blind → ∀ v, r.lastValid = some v → tick.kind = .blind (min 960 (v + s.trunk.settings.blindPenalty)))
    ∧ (r.state = .unseen → tick.kind = .unseen s.trunk.settings.blindPenalty)
    ∧ (now ≤ r.lastTick → u = s)
    ∧ (r.lastTick < now →
      -- merged into the pending reading
      (∀ p, r.pending = some p →
        u = { s with zones := u.zones } ∧ (∀ y, y ≠ z → u.zone y = s.zone y)
        ∧ u.zone z = { emptied with
          lagged := min 65535 (r.lagged + 1)
          pending := some { forced := p.forced, tick := { tick with
            gap := tick.gap || p.tick.gap
            openSeconds := min (p.tick.openSeconds + tick.openSeconds) tick.span
            openings := min 65535 (p.tick.openings + r.openings) } } })
      -- held, the queue being full
      ∧ (r.pending = none → 16 ≤ s.dose.queue.length →
        u = { s with zones := u.zones } ∧ (∀ y, y ≠ z → u.zone y = s.zone y)
        ∧ u.zone z = { emptied with lagged := min 65535 (r.lagged + 1), pending := some ⟨tick, none⟩ })
      -- submitted
      ∧ (r.pending = none → 1 ≤ s.dose.queue.length → s.dose.queue.length < 16 →
        u = { s with zones := u.zones, dose := { s.dose with
          queue := s.dose.queue ++ [⟨s.dose.nextItem, tick⟩], nextItem := (s.dose.nextItem + 1) % 65536 } }
        ∧ (∀ y, y ≠ z → u.zone y = s.zone y) ∧ u.zone z = { emptied with lastTick := now })
      ∧ (∀ e rest, r.pending = none → s.dose.queue = [] → s.zoneList z = e :: rest →
        u = { s with zones := u.zones, dose := { s.dose with
          queue := [⟨s.dose.nextItem, tick⟩], nextItem := (s.dose.nextItem + 1) % 65536, cursor := some e } }
        ∧ (∀ y, y ≠ z → u.zone y = s.zone y) ∧ u.zone z = { emptied with lastTick := now })
      ∧ (r.pending = none → s.dose.queue = [] → s.zoneList z = [] → (∀ y, 1 ≤ y → y ≤ 8 → (s.zone y).pending = none) →
        u = { s with zones := u.zones, dose := { s.dose with
          nextItem := (s.dose.nextItem + 1) % 65536, cursor := none } }
        ∧ (∀ y, y ≠ z → u.zone y = s.zone y) ∧ u.zone z = { emptied with lastTick := now })))
  -- at a sweep end
  ∧ ∀ (s : State) (z : Nat), s.time.vdd = true → s.coord.line = .poll 31 → 1 ≤ z → z ≤ 8 → (s.zone z).inService = true →
    s.dose.queue ≠ [] →
    let r := s.zone z
    let now := s.time.now
    let others := ∀ y, 1 ≤ y → y ≤ 8 → y ≠ z → (s.zone y).inService = false
    Gives .answerWindowClose s fun t => ∃ seconds openings : Nat,
      -- no door of the set leaves it, and none joins it
      ((∀ a ∈ r.openDoors, ∃ b, DoorOf s z a b ∧ (b.changed = true → b.state ≠ .closed)) →
        (∀ a b, DoorOf s z a b → b.changed = true → b.state = .opened → a ∈ r.openDoors) →
        openings = r.openings
        ∧ (r.union = none → seconds = min 4294967295 r.openSeconds)
        ∧ ∀ d, r.union = some d → seconds = min 4294967295 (r.openSeconds + (now - max d r.doorCount)))
      -- the union opens at `c`
      ∧ (∀ c, r.openDoors = [] → FirstOpened s z c → openings = min 65535 (r.openings + 1)
        ∧ seconds = min 4294967295 (r.openSeconds + (now - max c r.doorCount)))
      -- the only door of the set closes at `c`, or is no longer a door of the zone
      ∧ (∀ a d, r.openDoors = [a] → r.union = some d →
        (∀ x b, DoorOf s z x b → b.changed = true → b.state ≠ .opened) →
        (∀ b c, DoorOf s z a b → b.changed = true → b.state = .closed → b.changeTime = some c → openings = r.openings
          ∧ seconds = min 4294967295 (r.openSeconds + (c - max d r.doorCount)))
        ∧ (¬ Enrolled s z .door a → openings = r.openings
          ∧ seconds = min 4294967295 (r.openSeconds + (now - max d r.doorCount))))
      ∧ (now ≤ r.lastTick → (t.zone z).openSeconds = seconds ∧ (t.zone z).openings = openings
        ∧ (t.zone z).lastTick = r.lastTick ∧ (t.zone z).pending = r.pending ∧ (t.zone z).lagged = r.lagged
        ∧ (others → t.dose = s.dose))
      ∧ (r.lastTick < now →
        let tick : Tick :=
          { zone := z, time := now, span := min 3600 (now - r.lastTick), gap := decide (3600 < now - r.lastTick)
            openSeconds := min seconds (min 3600 (now - r.lastTick)), openings := openings
            kind := (t.zone z).tickKind s.trunk.settings.blindPenalty }
        (t.zone z).openSeconds = 0 ∧ (t.zone z).openings = 0
        ∧ (∀ p, r.pending = some p →
          (t.zone z).lastTick = r.lastTick ∧ (t.zone z).lagged = min 65535 (r.lagged + 1)
          ∧ (t.zone z).pending = some { forced := p.forced, tick := { tick with
              gap := tick.gap || p.tick.gap
              openSeconds := min (p.tick.openSeconds + tick.openSeconds) tick.span
              openings := min 65535 (p.tick.openings + openings) } }
          ∧ (others → t.dose = s.dose))
        ∧ (r.pending = none → 16 ≤ s.dose.queue.length →
          t.dose = s.dose ∧ (t.zone z).lastTick = r.lastTick ∧ (t.zone z).lagged = min 65535 (r.lagged + 1)
          ∧ (t.zone z).pending = some ⟨tick, none⟩)
        ∧ (r.pending = none → (s.dose.queue.length ≤ 8 ∨ others ∧ s.dose.queue.length < 16) →
          (t.zone z).lastTick = now ∧ (t.zone z).lagged = r.lagged ∧ (t.zone z).pending = none
          ∧ (∃ i ∈ t.dose.queue.drop s.dose.queue.length, i.tick = tick)
          ∧ (others → t.dose = { s.dose with
            queue := s.dose.queue ++ [⟨s.dose.nextItem, tick⟩], nextItem := (s.dose.nextItem + 1) % 65536 })))

/-- An item retires and a pending reading takes the freed place: the one forced earliest, or, with none forced, the next in
round-robin order after the pointer. It is appended with all its fields, its zone's last tick time and the pointer move, and
fences that waited for it take the item's number (R34, R35, R83, R107). An application, or a passing over, of the last lot
of the walk retires the item so, and the walk of the next item begins (R46 to R49). That the passing over is an
ITEM_APPLICATION of its own is the model's choice (log entry 34). -/
def Obligations.PendingReadingServed : Prop :=
  ∀ (s : State) (z : Nat) (p : PendingReading), 1 ≤ z → z ≤ 8 → (s.zone z).pending = some p → p.tick.zone = z →
    ((∃ o, p.forced = some o ∧ ∀ y, 1 ≤ y → y ≤ 8 → y ≠ z → ∀ q, (s.zone y).pending = some q → ∀ o', q.forced = some o' → o < o')
      ∨ (∀ y, 1 ≤ y → y ≤ 8 → ∀ q, (s.zone y).pending = some q → q.forced = none)
        ∧ ∀ y, 1 ≤ y → y ≤ 8 → y ≠ z → (s.zone y).pending ≠ none →
          (z + 15 - s.dose.roundRobin) % 8 < (y + 15 - s.dose.roundRobin) % 8) →
    s.dose.roundRobin ≤ 8 →
    let u := s.servePending
    (u.dose = { s.dose with
      queue := s.dose.queue ++ [⟨s.dose.nextItem, p.tick⟩]
      nextItem := (s.dose.nextItem + 1) % 65536
      roundRobin := z }
    ∧ u.zone z = { s.zone z with lastTick := p.tick.time, pending := none }
    ∧ (∀ y, y ≠ z → u.zone y = s.zone y)
    ∧ u.fences = s.fences.map (fun f => if f.forcedWait = true ∧ f.zone = z
        then { f with item := some s.dose.nextItem, forcedWait := false } else f)
    ∧ u = { s with dose := u.dose, zones := u.zones, fences := u.fences })
    -- as the head retires
    ∧ ∀ (i : DoseItem) (rest : List DoseItem) (e : Nat) (before : List Nat) (j : DoseItem) (more : List DoseItem) (x : Nat)
        (after : List Nat),
      s.time.vdd = true → s.dose.queue = i :: rest → s.dose.cursor = some e → e < 64 →
      (s.dose.stalled = false ∨ s.dose.retry = true) → s.zoneList i.tick.zone = before ++ [e] → e ∉ before →
      ((s.lot e).lastApplied = some i.number ∨ (s.lot e).run = none) →
      rest ++ [⟨s.dose.nextItem, p.tick⟩] = j :: more → s.zoneList j.tick.zone = x :: after →
      Gives .itemApplication s fun t =>
        t.dose.queue = j :: more ∧ t.dose.cursor = some x
        ∧ t.dose.nextItem = (s.dose.nextItem + 1) % 65536 ∧ t.dose.roundRobin = z
        ∧ t.zone z = { s.zone z with lastTick := p.tick.time, pending := none }
        ∧ (∀ y, y ≠ z → t.zone y = s.zone y)
        ∧ (∀ f ∈ s.fences, f.forcedWait = true → f.zone = z →
          { f with item := some s.dose.nextItem, forcedWait := false } ∈ t.fences)
        ∧ ((s.lot e).lastApplied = some i.number → t.pool = s.pool)

/-- The notices of a zone (R40). At the pacing expiry with a notice pending an ALARM goes out with the expiry time as its notice
time, and that becomes the last notice time; before the expiry, and with none armed or no notice pending, nothing happens
(log entry 6). A sweep end that raised or cleared kinds sends an ALARM at once when the pacing interval has passed, and
otherwise leaves the notice pending with the expiry armed. The ALARM carries the alarm set, what was raised and cleared
since the last notice, the state, the latest reading and the SILENT probes (R41), whose rising order is the model's choice
(log entry 46). Each kind raised is a wake request of ALARM (R190). -/
def Obligations.AlarmNoticesSent : Prop :=
  ∀ (s : State) (z : Nat), s.time.vdd = true → 1 ≤ z → z ≤ 8 →
    let r := s.zone z
    -- the pacing expiry
    (∀ p, r.pacing = some p → p ≤ s.time.now → r.noticePending = true →
      Gives (.pacingExpiry z) s fun t =>
        t = { s with zones := t.zones, trunk := t.trunk }
        ∧ (∀ y, y ≠ z → t.zone y = s.zone y)
        ∧ t.zone z = { r with
            lastNotice := some p, raisedSince := ⟨false, false, false, false⟩
            clearedSince := ⟨false, false, false, false⟩, noticePending := false, pacing := none }
        ∧ AlarmSent s.trunk t.trunk t z p r.raisedSince r.clearedSince)
    ∧ ((r.noticePending = false ∨ r.pacing = none ∨ ∃ p, r.pacing = some p ∧ s.time.now < p) →
      exec (.pacingExpiry z) s = .next s)
    -- a sweep end
    ∧ (s.coord.line = .poll 31 → r.inService = true → Gives .answerWindowClose s fun t =>
      let q := t.zone z
      let raised : AlarmSet :=
        ⟨q.alarms.tempHigh && !r.alarms.tempHigh, q.alarms.doorHeld && !r.alarms.doorHeld
        , q.alarms.zoneBlind && !r.alarms.zoneBlind, q.alarms.unitFault && !r.alarms.unitFault⟩
      let cleared : AlarmSet :=
        ⟨r.alarms.tempHigh && !q.alarms.tempHigh, r.alarms.doorHeld && !q.alarms.doorHeld
        , r.alarms.zoneBlind && !q.alarms.zoneBlind, r.alarms.unitFault && !q.alarms.unitFault⟩
      let allRaised := r.raisedSince.union raised
      let allCleared := r.clearedSince.union cleared
      let others := ∀ y, 1 ≤ y → y ≤ 8 → y ≠ z → (s.zone y).inService = false
      let due := r.lastNotice = none ∨ ∃ n, r.lastNotice = some n ∧ s.trunk.settings.pacingInterval ≤ s.time.now - n
      (q.alarms = r.alarms →
        q.lastNotice = r.lastNotice ∧ q.raisedSince = r.raisedSince ∧ q.clearedSince = r.clearedSince
        ∧ q.noticePending = r.noticePending ∧ q.pacing = r.pacing ∧ (others → t.trunk = s.trunk))
      ∧ (q.alarms ≠ r.alarms → due →
        q.lastNotice = some s.time.now ∧ q.raisedSince = ⟨false, false, false, false⟩
        ∧ q.clearedSince = ⟨false, false, false, false⟩ ∧ q.noticePending = false ∧ q.pacing = none
        ∧ (others → AlarmSent s.trunk t.trunk t z s.time.now allRaised allCleared))
      ∧ (∀ n, q.alarms ≠ r.alarms → ¬ due → r.lastNotice = some n →
        q.lastNotice = r.lastNotice ∧ q.raisedSince = allRaised ∧ q.clearedSince = allCleared ∧ q.noticePending = true
        ∧ q.pacing = some (r.pacing.getD (min 4294967295 (n + s.trunk.settings.pacingInterval)))
        ∧ (others → t.trunk = s.trunk))
      ∧ (raised ≠ ⟨false, false, false, false⟩ → s.trunk.settings.wakeAlarm = true →
        t.time.lastWake = some (.alarm, s.time.now)
        ∧ t.time.wakeUntil = max s.time.wakeUntil (min 4294967295 (s.time.now + s.trunk.settings.wakeHold))))

/-- LOAD_ZONE (R24, R25): refused outside zones 1..8 or, taking a zone OUT, while a lot stands on its list or moves to it;
accepted, the limit and delay are written after their clamps and the zone takes its service. A zone that goes OUT with kinds in
its alarm set has them cleared, with an ALARM at once or a notice left pending (R40, R41). The layout of the answer's fields is
log entry 9; that this ALARM says defrost OFF and goes before the ANSWER is the model's choice (log entry 33). -/
def Obligations.LoadZoneAnswered : Prop :=
  ∀ (s : State) (tag zone service : Byte) (limit delay : BitVec 16), s.time.vdd = true →
    let z := zone.toNat
    let load := Instr.loadZone tag zone service limit delay
    let lim := max (-960) (min 960 limit.toInt)
    let del := min 3600 delay.toNat
    let code : Code := if lim = limit.toInt ∧ del = delay.toNat then .ok else .clamped
    let written := { s.zone z with limit := lim, delay := del }
    let occupied := s.zoneList z ≠ []
      ∨ ∃ e m, e < 64 ∧ (s.lot e).state = .moving ∧ (s.lot e).move = some m ∧ m.dest = z
    ((z < 1 ∨ 8 < z) → exec load s = .next (s.answer tag 35 .badZone []))
    ∧ (1 ≤ z → z ≤ 8 →
      (service = 0 → occupied → exec load s = .next (s.answer tag 35 .notEmpty []))
      ∧ (service ≠ 0 ∨ ¬ occupied → Gives load s fun t =>
        (∀ y, y ≠ z → t.zone y = s.zone y)
        ∧ t = { s with zones := t.zones, trunk := t.trunk }
        -- OUT to IN
        ∧ (service ≠ 0 → (s.zone z).inService = false →
          AnsweredAlone s t tag 35 code [Val.num 1 1, Val.temp (some lim), Val.num 2 del, Val.num 1 0]
          ∧ ∃ doors : List Nat, t.zone z = { written with
              inService := true, state := .unseen, lastValid := none, latest := none, inServiceTime := s.time.now
              lastTick := s.time.now, doorCount := s.time.now, openSeconds := 0, openings := 0, defrost := none
              openDoors := doors, union := if doors = [] then none else some s.time.now }
            ∧ ∀ a, a ∈ doors ↔ 1 ≤ a ∧ a ≤ 31 ∧ (∃ e, (s.node a).entry = some e ∧ e.role = .door ∧ e.zone = some z)
              ∧ ∃ b, (s.node a).box = .door b ∧ b.state = .opened)
        -- the same service as before
        ∧ ((service ≠ 0 ∧ (s.zone z).inService = true ∨ service = 0 ∧ (s.zone z).inService = false) →
          t.zone z = written
          ∧ AnsweredAlone s t tag 35 code
              [Val.num 1 (if service = 0 then 0 else 1), Val.temp (some lim), Val.num 2 del, Val.num 1 (s.zone z).state.code])
        -- IN to OUT
        ∧ (service = 0 → (s.zone z).inService = true →
          (t.zone z).inService = false ∧ (t.zone z).pending = none ∧ (t.zone z).alarms = ⟨false, false, false, false⟩
          ∧ (t.zone z).aboveSince = none ∧ (t.zone z).openDoors = [] ∧ (t.zone z).union = none
          ∧ (t.zone z).openSeconds = 0 ∧ (t.zone z).openings = 0 ∧ (t.zone z).defrost = none
          ∧ (t.zone z).limit = lim ∧ (t.zone z).delay = del ∧ (t.zone z).state = (s.zone z).state
          ∧ (t.zone z).lagged = (s.zone z).lagged ∧ (t.zone z).lastTick = (s.zone z).lastTick
          ∧ ((s.zone z).alarms = ⟨false, false, false, false⟩ →
            (t.zone z).lastNotice = (s.zone z).lastNotice ∧ (t.zone z).pacing = (s.zone z).pacing
            ∧ (t.zone z).noticePending = (s.zone z).noticePending
            ∧ (t.zone z).raisedSince = (s.zone z).raisedSince ∧ (t.zone z).clearedSince = (s.zone z).clearedSince
            ∧ AnsweredAlone s t tag 35 code [Val.num 1 0, Val.temp (some lim), Val.num 2 del, Val.num 1 (s.zone z).state.code])
          ∧ ((s.zone z).alarms ≠ ⟨false, false, false, false⟩ →
            let r := s.zone z
            let q := t.zone z
            let cleared := r.clearedSince.union r.alarms
            let due := r.lastNotice = none ∨ ∃ n, r.lastNotice = some n ∧ s.trunk.settings.pacingInterval ≤ s.time.now - n
            (due → q.lastNotice = some s.time.now ∧ q.raisedSince = ⟨false, false, false, false⟩
              ∧ q.clearedSince = ⟨false, false, false, false⟩ ∧ q.noticePending = false ∧ q.pacing = none
              ∧ ∃ between : Trunk, AlarmSent s.trunk between t z s.time.now r.raisedSince cleared
                ∧ t.trunk = (between.join (.answer tag 35 code
                  [Val.num 1 0, Val.temp (some lim), Val.num 2 del, Val.num 1 r.state.code])).transmit)
            ∧ ∀ n, ¬ due → r.lastNotice = some n →
              q.lastNotice = some n ∧ q.raisedSince = r.raisedSince ∧ q.clearedSince = cleared ∧ q.noticePending = true
              ∧ q.pacing = some (r.pacing.getD (min 4294967295 (n + s.trunk.settings.pacingInterval)))
              ∧ AnsweredAlone s t tag 35 code [Val.num 1 0, Val.temp (some lim), Val.num 2 del, Val.num 1 r.state.code]))))

/-! ## The dose engine (spec/03) -/

/-- The rate (R55). -/
def Obligations.DoseRate : Prop :=
  ∀ (p : Profile) (t : Int), -960 ≤ p.lower → p.lower < p.upper → p.upper ≤ 960 → 1 ≤ p.weight → p.weight ≤ 4 →
    -960 ≤ t → t ≤ 960 →
    (rateAt p t : Int) = max 0 (t - p.lower) + (p.weight - 1) * max 0 (t - p.upper)
    ∧ rateAt p t ≤ 7677
    ∧ max 0 (t - p.lower) ≤ 1920 ∧ (p.weight - 1) * max 0 (t - p.upper) ≤ 5757
    ∧ (t < p.lower → rateAt p t = 0)
    ∧ (p.lower ≤ t → t < p.upper → rateAt p (t + 1) = rateAt p t + 1)
    ∧ (p.upper ≤ t → rateAt p (t + 1) = rateAt p t + p.weight)
    ∧ (∀ (l : Lot) (i : DoseItem), 0 < shareOf i.tick l.entered → (l.charge i p).1.dose
      = min 4294967295 (l.dose + rateAt p (effectiveTemp i.tick.kind l.lastTemp)
          * (shareOf i.tick l.entered - doorShareOf i.tick l.entered)
        + rateAt p (doorTemp (effectiveTemp i.tick.kind l.lastTemp) p.discount) * doorShareOf i.tick l.entered))

/-- The head item is applied to the lot under the cursor, with no EXCURSION record due: share (R53), temperatures (R54),
dose (R55, R56), seconds and doors (R57), peak and last temperature (R58), melt run (R59), excursion run (R60, R61) and marks
(R62). A zero share charges nothing (R52). No other lot changes, and the fence that names the item is told (R51). -/
def Obligations.ItemCharged : Prop :=
  ∀ (s : State) (i : DoseItem) (rest : List DoseItem) (e : Nat),
    s.time.vdd = true → s.dose.queue = i :: rest → s.dose.cursor = some e → e < 64 →
    (s.dose.stalled = false ∨ s.dose.retry = true) → (s.lot e).lastApplied ≠ some i.number →
    let l := s.lot e
    let p := s.profile l.profile
    let share := min i.tick.span (i.tick.time - l.entered)
    let door := min i.tick.openSeconds share
    let eff : Int := match i.tick.kind with
      | .watched v => v
      | .blind v => v
      | .unseen penalty => min 960 (l.lastTemp + penalty)
    let cool := max (-960) (eff - p.discount)
    let test := if door = share then cool else eff
    let melt := if p.upper < test then min 65535 (l.meltRun + share) else 0
    let sum := l.dose + (rateAt p eff * (share - door) + rateAt p cool * door)
    (share = 0 ∨ p.lower < test ∨ ∀ r, l.run = some r → r.length ≤ 300) →
    Gives .itemApplication s fun t =>
      t = { s with pool := { s.pool with lots := t.pool.lots }, dose := t.dose, fences := t.fences, zones := t.zones }
      ∧ (∀ x, x ≠ e → t.lot x = s.lot x)
      ∧ t.dose.stalled = false
      ∧ (share = 0 → t.lot e = { l with lastTemp := eff, lastApplied := some i.number, asOf := max l.asOf i.tick.time })
      ∧ (0 < share → t.lot e = { l with
          lastTemp := eff
          lastApplied := some i.number
          asOf := max l.asOf i.tick.time
          dose := min 4294967295 sum
          seconds := l.seconds + share
          doorOpenings := min 65535 (l.doorOpenings + i.tick.openings)
          doorSeconds := min 4294967295 (l.doorSeconds + door)
          peak := max l.peak test
          meltRun := melt
          marks := { l.marks with
            melted := l.marks.melted || decide (p.upper < test ∧ p.meltHold ≤ melt)
            gap := l.marks.gap || i.tick.gap
            saturated := l.marks.saturated || decide (4294967295 ≤ sum) }
          run := (t.lot e).run, bands := (t.lot e).bands })
      ∧ (0 < share → p.lower < test → (t.lot e).bands = l.bands
        ∧ (l.run = none → (t.lot e).run = some ⟨i.tick.time - share, min 4294967295 share, test⟩)
        ∧ ∀ r, l.run = some r → (t.lot e).run = some ⟨r.start, min 4294967295 (r.length + share), max r.peak test⟩)
      ∧ (0 < share → test ≤ p.lower → (t.lot e).run = none
        ∧ (l.run = none → (t.lot e).bands = l.bands)
        ∧ ∀ r, l.run = some r → (t.lot e).bands = if r.length ≤ 60 then { l.bands with b1 := min 255 (l.bands.b1 + 1) }
          else { l.bands with b2 := min 255 (l.bands.b2 + 1) })
      ∧ ∀ f ∈ s.fences, f.forcedWait = false →
        (if f.entry = e ∧ f.item = some i.number then { f with item := none } else f) ∈ t.fences

/-- The walk (R46 to R49): after an application, or past a lot that already has the item, the cursor moves to the lot that
follows on the list; after the last one the item retires, and, with no reading pending, the next item's walk begins. That a lot
which already has the item is passed over by an ITEM_APPLICATION of its own is the model's choice (log entry 34). -/
def Obligations.WalkGoesOn : Prop :=
  ∀ (s : State) (i : DoseItem) (rest : List DoseItem) (e : Nat) (before after : List Nat),
    s.time.vdd = true → s.dose.queue = i :: rest → s.dose.cursor = some e → e < 64 →
    (s.dose.stalled = false ∨ s.dose.retry = true) → s.zoneList i.tick.zone = before ++ e :: after → e ∉ before →
    ((s.lot e).lastApplied = some i.number ∨ (s.lot e).run = none) →
    Gives .itemApplication s fun t =>
      ((s.lot e).lastApplied = some i.number → t = { s with dose := t.dose, zones := t.zones, fences := t.fences })
      ∧ (∀ x after', after = x :: after' → t.dose.queue = i :: rest ∧ t.dose.cursor = some x ∧ t.zones = s.zones)
      ∧ (after = [] → (∀ z, 1 ≤ z → z ≤ 8 → (s.zone z).pending = none) → t.zones = s.zones
        ∧ (rest = [] → t.dose.queue = [] ∧ t.dose.cursor = none)
        ∧ ∀ j rest' x more, rest = j :: rest' → s.zoneList j.tick.zone = x :: more →
          t.dose.queue = rest ∧ t.dose.cursor = some x)

/-- An application that closes a run above 300 s is taken only with its EXCURSION record (R47, R50, R61): admitted, the record
carries the band, the run and the dose after the application, and its number joins the lot's evidence; without room the
engine stalls, nothing of the application is taken, and the stall is counted as it begins. Room for `k` admissions is what R124
and R125 say: a store past its locate stage with no hold, 8 queue places, or 7 while carry is due, the reserved admissions
counted, and headroom for the demand; a DEGRADED store has room (R130). That a refused retry of a stalled engine is not counted
anew, and the bit that says it has been told and has not yet retried, are the model's choice (log entry 7). -/
def Obligations.ExcursionAdmittedOrStalled : Prop :=
  (∀ (st : Store) (k : Nat),
    let erased := (List.range 64).countP (fun b => decide ((st.block b).content = .erased))
    let head := st.block (st.headPage / 16)
    let ahead := (if head.content = .head ∧ head.retired = false then 15 - st.headPage % 16 else 0) + 16 * erased
    let unused := match st.fill with
      | some f => 8 - f.records.length
      | none => 0
    st.roomFor k = true ↔ st.status = .degraded
      ∨ (st.status = .ready ∨ st.status = .rebuild) ∧ st.hold = false
        ∧ st.queue.length + st.reserved + k ≤ (if 0 < st.carryDue then 7 else 8)
        ∧ st.queue.length + st.reserved + st.carryDue + k ≤ unused + 8 * ahead)
  ∧ ∀ (s : State) (i : DoseItem) (rest : List DoseItem) (e : Nat) (r : Run),
    s.time.vdd = true → s.dose.queue = i :: rest → s.dose.cursor = some e → e < 64 →
    (s.dose.stalled = false ∨ s.dose.retry = true) → (s.lot e).lastApplied ≠ some i.number →
    let l := s.lot e
    let p := s.profile l.profile
    let share := min i.tick.span (i.tick.time - l.entered)
    let door := min i.tick.openSeconds share
    let eff : Int := match i.tick.kind with
      | .watched v => v
      | .blind v => v
      | .unseen penalty => min 960 (l.lastTemp + penalty)
    let cool := max (-960) (eff - p.discount)
    0 < share → (if door = share then cool else eff) ≤ p.lower → l.run = some r → 300 < r.length →
    s.store.nextSeq + s.store.reserved ≤ 4294967294 →
    let dose := min 4294967295 (l.dose + (rateAt p eff * (share - door) + rateAt p cool * door))
    let band := if r.length ≤ 900 then 3 else if r.length ≤ 3600 then 4 else 5
    (s.store.roomFor 1 = true → Gives .itemApplication s fun t =>
      Admitted s t (.excursion l.id l.zone l.profile band r dose)
      ∧ (t.lot e).run = none ∧ (t.lot e).dose = dose ∧ (t.lot e).lastApplied = some i.number
      ∧ (t.lot e).seconds = l.seconds + share
      ∧ (t.lot e).bands = (if band = 3 then { l.bands with b3 := min 255 (l.bands.b3 + 1) }
        else if band = 4 then { l.bands with b4 := min 255 (l.bands.b4 + 1) }
        else { l.bands with b5 := min 255 (l.bands.b5 + 1) })
      ∧ (l.evidence.length < 8 → (t.lot e).evidence = l.evidence ++ [s.store.nextSeq]
        ∧ (t.lot e).marks.trimmed = l.marks.trimmed)
      ∧ (∀ first old more, l.evidence = first :: old :: more → 8 ≤ l.evidence.length →
        (t.lot e).evidence = first :: more ++ [s.store.nextSeq] ∧ (t.lot e).marks.trimmed = true)
      ∧ (∀ x, x ≠ e → t.lot x = s.lot x)
      ∧ t.hold = s.hold ∧ t.time = s.time ∧ t.claims.claims = s.claims.claims)
    ∧ (s.store.roomFor 1 = false → exec .itemApplication s = .next { s with dose := { s.dose with
        stalled := true, retry := false
        stallCount := if s.dose.stalled then s.dose.stallCount else min 65535 (s.dose.stallCount + 1) } })

/-! ## Holds and handover (spec/05) -/

/-- A HOLD that passes every check is granted (R99): the lowest-numbered FREE token, the lot HELD, the scanner's current
token, the grant count, the figures of GRANTED (R114), and a wake request from SCAN (R100). One that fails a check is answered
with the code of the first that fails, and changes nothing of tokens, lots and scanner records; it is a wake request from SCAN
too (R100). -/
def Obligations.HoldDecided : Prop :=
  (∀ (s : State) (src : Byte) (id : ConsId) (r : ScannerRecord) (e k : Nat),
    ScannerPolled s src.toNat r → r.token = none → Carries s id e → (s.lot e).state = .resident →
    k < 4 → s.token k = none → (∀ j, j < k → s.token j ≠ none) →
    Gives (.hold src id) s fun t =>
      t.token k = some ⟨e, id, src.toNat, s.time.now, some (min 4294967295 (s.time.now + s.trunk.settings.holdLimit)), none⟩
      ∧ (∀ j, j ≠ k → t.token j = s.token j)
      ∧ t.lot e = { s.lot e with state := .held, token := some k }
      ∧ (∀ x, x ≠ e → t.lot x = s.lot x)
      ∧ (t.node src.toNat).scanner = some { r with token := some k }
      ∧ t.hold = { s.hold with tokens := t.hold.tokens, grants := min 65535 (s.hold.grants + 1) }
      ∧ t.pool = { s.pool with lots := t.pool.lots } ∧ t.store = s.store ∧ t.claims = s.claims
      ∧ ScannerAnswered t src.toNat ⟨id, .granted (s.lot e).zone (min 65535 ((s.lot e).dose / 960)) (s.lot e).peak
          (s.lot e).marks.melted (s.lot e).marks.returned s.trunk.settings.holdLimit⟩
      ∧ (src.toNat < 31 → ScannerTurn s t src.toNat
        ∧ t = { s with coord := t.coord, pool := t.pool, hold := t.hold, time := t.time }
        ∧ (s.trunk.settings.wakeScan = true →
          t.time.wakeUntil = max s.time.wakeUntil (min 4294967295 (s.time.now + s.trunk.settings.wakeHold))
          ∧ t.time.lastWake = some (.scan, s.time.now))
        ∧ (s.trunk.settings.wakeScan = false → t.time = s.time)))
  ∧ (∀ (s : State) (src : Byte) (id : ConsId) (r : ScannerRecord), ScannerPolled s src.toNat r →
    let refused := fun (answer : ScanAnswer) => Gives (.hold src id) s fun t =>
      CustodyKept s t ∧ (t.node src.toNat).scanner = some r ∧ ScannerAnswered t src.toNat ⟨id, answer⟩
      ∧ (src.toNat < 31 → ScannerTurn s t src.toNat ∧ t = { s with coord := t.coord, time := t.time }
        ∧ (s.trunk.settings.wakeScan = true →
          t.time = { s.time with
            wakeUntil := max s.time.wakeUntil (min 4294967295 (s.time.now + s.trunk.settings.wakeHold))
            lastWake := some (.scan, s.time.now), mode := t.time.mode, modeChanges := t.time.modeChanges })
        ∧ (s.trunk.settings.wakeScan = false → t.time = s.time))
    (∀ j u, r.token = some j → s.token j = some u → refused (.alreadyHolding u.id))
    ∧ (r.token = none → NotOnBoard s id → refused .unknownLot)
    ∧ ∀ e, r.token = none → Carries s id e →
      ((s.lot e).state = .closing → refused (.busy .closing))
      ∧ ((s.lot e).state = .moving → refused (.busy .moving))
      ∧ (∀ j u, (s.lot e).state = .held → (s.lot e).token = some j → s.token j = some u → refused (.held u.scanner))
      ∧ ((s.lot e).state = .resident → (∀ j, j < 4 → s.token j ≠ none) → refused .noToken))

/-- RELEASE (R101): the hold is released in one event; a CLOSING lot is BUSY; in every other case the answer is NOT_HELD and
nothing changes. -/
def Obligations.ReleaseDecided : Prop :=
  ∀ (s : State) (src : Byte) (id : ConsId) (r : ScannerRecord), ScannerPolled s src.toNat r →
    let unchanged := fun (answer : ScanAnswer) => Gives (.release src id) s fun t =>
      CustodyKept s t ∧ (t.node src.toNat).scanner = some r ∧ ScannerAnswered t src.toNat ⟨id, answer⟩
      ∧ (src.toNat < 31 → ScannerTurn s t src.toNat ∧ t = { s with coord := t.coord })
    (∀ k u, r.token = some k → k < 4 → s.token k = some u → u.id = id → u.entry < 64 →
      ((s.lot u.entry).state = .held → u.scanner = src.toNat → Gives (.release src id) s fun t =>
        t.token k = none ∧ (∀ j, j ≠ k → t.token j = s.token j)
        ∧ t.lot u.entry = { s.lot u.entry with state := .resident, token := none }
        ∧ (∀ x, x ≠ u.entry → t.lot x = s.lot x)
        ∧ (t.node src.toNat).scanner = some { r with token := none }
        ∧ t.hold = { s.hold with tokens := t.hold.tokens } ∧ t.pool = { s.pool with lots := t.pool.lots }
        ∧ t.store = s.store ∧ t.claims = s.claims
        ∧ ScannerAnswered t src.toNat ⟨id, .released⟩
        ∧ (src.toNat < 31 → ScannerTurn s t src.toNat ∧ t = { s with coord := t.coord, pool := t.pool, hold := t.hold }))
      ∧ ((s.lot u.entry).state = .closing → unchanged (.busy .closing)))
    ∧ (r.token = none → unchanged .notHeld)
    ∧ (∀ k u, r.token = some k → s.token k = some u → u.id ≠ id → unchanged .notHeld)

/-- A token expires when its expiry time is reached (R102): token, lot and scanner in one event, the last expired consignment
and the count; the scanner is sent nothing. Before that time, and without an expiry time, nothing happens (log entry 6). -/
def Obligations.HoldExpires : Prop :=
  ∀ (s : State) (k : Nat) (u : TokenUse), s.time.vdd = true → k < 4 → s.token k = some u →
    (∀ x r, u.expiry = some x → x ≤ s.time.now → u.entry < 64 → 1 ≤ u.scanner → u.scanner ≤ 31 →
      (s.node u.scanner).scanner = some r →
      Gives (.holdExpiry k) s fun t =>
        t.token k = none ∧ (∀ j, j ≠ k → t.token j = s.token j)
        ∧ t.lot u.entry = { s.lot u.entry with state := .resident, token := none }
        ∧ (∀ x, x ≠ u.entry → t.lot x = s.lot x)
        ∧ t.node u.scanner = { s.node u.scanner with scanner := some { r with token := none, lastExpired := some u.id } }
        ∧ (∀ a, a ≠ u.scanner → t.node a = s.node a)
        ∧ t.hold = { s.hold with tokens := t.hold.tokens, expiries := min 65535 (s.hold.expiries + 1) }
        ∧ t = { s with
            coord := { s.coord with nodes := t.coord.nodes }, pool := { s.pool with lots := t.pool.lots }, hold := t.hold })
    ∧ ((u.expiry = none ∨ ∃ x, u.expiry = some x ∧ s.time.now < x) → exec (.holdExpiry k) s = .next s)

/-- A COMMIT that passes every check is accepted (R106): the lot is CLOSING, the token keeps recipient, outcome and reason
and has no expiry, 3 admissions are reserved, the last commit is waiting, and the commit fence is taken from the newest item
of the lot's zone and its pending reading. No answer is returned: the scanner's request stays outstanding (R16, R17). -/
def Obligations.CommitAccepted : Prop :=
  ∀ (s : State) (src outcome reason : Byte) (id : ConsId) (recipient : Word32) (r : ScannerRecord) (k : Nat) (u : TokenUse),
    ScannerPolled s src.toNat r → r.token = some k → k < 4 → s.token k = some u → u.id = id → u.entry < 64 →
    (s.lot u.entry).state = .held →
    (outcome = 0 ∨ outcome = 1 ∧ 1 ≤ reason.toNat ∧ reason.toNat ≤ 15) →
    s.store.nextSeq + s.store.reserved + 3 ≤ 4294967295 → s.store.roomFor 3 = true →
    Gives (.commit src id recipient outcome reason) s fun t =>
      t.lot u.entry = { s.lot u.entry with state := .closing } ∧ (∀ x, x ≠ u.entry → t.lot x = s.lot x)
      ∧ t.token k = some { u with
          expiry := none
          commit := some ⟨recipient, decide (outcome = 1), if outcome = 1 then reason.toNat else 0⟩ }
      ∧ (∀ j, j ≠ k → t.token j = s.token j)
      ∧ (t.node src.toNat).scanner = some { r with lastCommit := some ⟨id, none, none, none, false⟩ }
      ∧ t.store = { s.store with reserved := s.store.reserved + 3 }
      ∧ t.hold = { s.hold with tokens := t.hold.tokens } ∧ t.pool = { s.pool with lots := t.pool.lots }
      ∧ t.claims = s.claims
      ∧ (src.toNat < 31 →
        t = { s with coord := t.coord, zones := t.zones, fences := t.fences, pool := t.pool, hold := t.hold, store := t.store }
        ∧ ScannerTurn s t src.toNat ∧ ExchangeEnded s.coord t src.toNat ∧ (t.node src.toNat).outstanding = .awaited
        ∧ (∃ f : Fence, t.fences = s.fences ++ [f]
          ∧ f.owner = .commit k ∧ f.entry = u.entry ∧ f.zone = (s.lot u.entry).zone
          ∧ f.forcedWait = (s.zone (s.lot u.entry).zone).pending.isSome
          ∧ ((∀ i ∈ s.dose.queue, i.tick.zone ≠ (s.lot u.entry).zone) → f.item = none)
          ∧ ∀ before i after, s.dose.queue = before ++ i :: after → i.tick.zone = (s.lot u.entry).zone →
            (∀ j ∈ after, j.tick.zone ≠ (s.lot u.entry).zone) →
            f.item = if (s.lot u.entry).lastApplied = some i.number then none else some i.number)
        ∧ (∀ z, z ≠ (s.lot u.entry).zone → t.zone z = s.zone z)
        ∧ ((s.zone (s.lot u.entry).zone).pending = none → t.zones = s.zones)
        ∧ ∀ p, 1 ≤ (s.lot u.entry).zone → (s.lot u.entry).zone ≤ 8 → (s.zone (s.lot u.entry).zone).pending = some p →
          ∃ o, t.zone (s.lot u.entry).zone = { s.zone (s.lot u.entry).zone with pending := some { p with forced := some o } }
            ∧ (∀ q, p.forced = some q → o = q)
            ∧ (p.forced = none → ∀ z q n, 1 ≤ z → z ≤ 8 → (s.zone z).pending = some q → q.forced = some n → n < o))

/-- A new COMMIT that fails a check is answered with the code of the first that fails, and changes nothing: the hold and its
expiry stand (R105). -/
def Obligations.CommitRefused : Prop :=
  ∀ (s : State) (src outcome reason : Byte) (id : ConsId) (recipient : Word32) (r : ScannerRecord),
    ScannerPolled s src.toNat r → (∀ c, r.lastCommit = some c → c.id ≠ id) →
    let refused := fun (answer : ScanAnswer) => Gives (.commit src id recipient outcome reason) s fun t =>
      CustodyKept s t ∧ (t.node src.toNat).scanner = some r ∧ ScannerAnswered t src.toNat ⟨id, answer⟩
      ∧ (src.toNat < 31 → ScannerTurn s t src.toNat ∧ t = { s with coord := t.coord })
    let known := outcome = 0 ∨ outcome = 1 ∧ 1 ≤ reason.toNat ∧ reason.toNat ≤ 15
    (¬ known → refused .badOutcome)
    ∧ (known → r.token = none → r.lastExpired = some id → refused .late)
    ∧ (known → r.token = none → r.lastExpired ≠ some id → refused .notHeld)
    ∧ ∀ k u, known → r.token = some k → s.token k = some u →
      (u.id ≠ id → refused (.mismatch u.id))
      ∧ (u.id = id → s.store.nextSeq + s.store.reserved + 3 ≤ 4294967295 → s.store.roomFor 3 = false → refused .storeBusy)

/-- A repeated COMMIT is answered from the last commit and changes no token or lot (R104): at the answered stage at once, at
the recorded stage and while its closing waits not yet. After a warm restart ended the waiting closing it is decided as
new. -/
def Obligations.CommitRepeated : Prop :=
  ∀ (s : State) (src outcome reason : Byte) (id : ConsId) (recipient : Word32) (r : ScannerRecord) (c : LastCommit),
    ScannerPolled s src.toNat r → r.lastCommit = some c → c.id = id →
    (∀ k u, r.token = some k → s.token k = some u → u.id = id → (s.lot u.entry).state ≠ .held) →
    (∀ k, r.token = some k → ∃ u, s.token k = some u) →
    let commit := Instr.commit src id recipient outcome reason
    let answered := fun (answer : ScanAnswer) => Gives commit s fun t =>
      CustodyKept s t ∧ (t.node src.toNat).scanner = some r ∧ ScannerAnswered t src.toNat ⟨id, answer⟩
      ∧ (src.toNat < 31 → ScannerTurn s t src.toNat ∧ t = { s with coord := t.coord })
    let later := Gives commit s fun t =>
      CustodyKept s t ∧ (t.node src.toNat).scanner = some r
      ∧ (src.toNat < 31 → ScannerTurn s t src.toNat ∧ ExchangeEnded s.coord t src.toNat ∧ t = { s with coord := t.coord }
        ∧ (t.node src.toNat).outstanding = .awaited)
    (∀ answer, c.answer = some answer → answered answer)
    ∧ (∀ n, c.answer = none → c.seq = some n → later)
    ∧ (∀ k u, c.answer = none → c.seq = none → r.token = some k → s.token k = some u → u.id = id →
      (s.lot u.entry).state = .closing → later)
    ∧ (c.answer = none → c.seq = none → r.token = none → outcome = 0 →
      answered (if r.lastExpired = some id then .late else .notHeld))

/-- The closing of an accepted lot (R109 to R112), whatever its run and evidence: with a run above 300 s the EXCURSION record
comes first and joins the lot's evidence (R86, R110); the HANDOVER record gives the lot's account with its run closed and is
chained to it; the token and the scanner, the freeing (R88), the reservation, of which nothing is left, and the last commit at its
next stage. With a claim due (R111), none open for the consignment and room in the table, a claim opens on the lot's evidence and
the HANDOVER record, of which, when they are nine, the second goes (R149), with its CLAIM_OPEN record, the third of the three
reserved where an EXCURSION record is made, and its notice (R152), and the answer's figures carry its number. A forced flush, that of
the HANDOVER record's page or one that waits already, is taken after the whole event, so that with room in the fill page all
records of a closing stand in that page (R110, R127). That a recorded last commit keeps the figures of the answer that is to come
is the model's choice (log entry 30). -/
def Obligations.ClosingAccepts : Prop :=
  ∀ (s : State) (k : Nat) (u : TokenUse) (c : CommitField), ClosingReady s k u c → c.refuse = false →
    let l := s.lot u.entry
    let n := s.store.nextSeq
    let closed := accountClosed l n
    let h := n + (excursionDue l).length
    let figures : Option Nat → Figures := fun claim => ⟨min 65535 (l.dose / 960), claim, false⟩
    let ended := fun (t : State) (claim : Option Nat) =>
      t.store.reserved = s.store.reserved - 3
      ∧ t.token k = none ∧ (∀ j, j ≠ k → t.token j = s.token j)
      ∧ t.hold = { s.hold with tokens := t.hold.tokens, closings := min 65535 (s.hold.closings + 1) }
      ∧ (∀ f ∈ t.fences, f.owner ≠ .commit k)
      ∧ t.lot u.entry = .blank ∧ (∀ x, x ≠ u.entry → t.lot x = s.lot x)
      ∧ t.pool.free = s.pool.free ++ [u.entry]
      ∧ t.zoneList l.zone = (s.zoneList l.zone).filter (· != u.entry)
      ∧ (∀ z, z ≠ l.zone → t.zoneList z = s.zoneList z)
      ∧ (s.dose.cursor ≠ some u.entry → t.zones = s.zones ∧ t.dose = { s.dose with retry := t.dose.retry })
      ∧ t.time = s.time
      ∧ (∀ r, (s.node u.scanner).scanner = some r → ∃ r', (t.node u.scanner).scanner = some r'
        ∧ r'.token = none ∧ r'.lastExpired = r.lastExpired
        ∧ ∀ q, r.lastCommit = some q → q.id = u.id → q.answer = none → q.seq = none →
          (t.store.status ≠ .degraded → r'.lastCommit = some ⟨u.id, some h, some (figures claim), none, q.stored⟩)
          ∧ (s.store.status = .degraded →
            (∀ a r₂ q₂, 1 ≤ a → a < u.scanner → (s.node a).scanner = some r₂ → r₂.lastCommit = some q₂ →
              q₂.seq ≠ some h) →
            r'.lastCommit = some ⟨u.id, some h, some (figures claim), some (.notStored h (figures claim)), false⟩))
    (¬ DoseDue s l → l.marks.melted = false → l.marks.gap = false →
      Gives (.closingEvent k) s fun t =>
        AdmittedAll s t (excursionDue l ++ [handoverOf closed u.entry c false false]) ∧ ended t none
        ∧ t.claims.claims = s.claims.claims ∧ t.claims.nextNumber = s.claims.nextNumber)
    -- with a claim that opens
    ∧ ((DoseDue s l ∨ l.marks.melted = true ∨ l.marks.gap = true) → u.id = l.id → s.claims.rebuild = .no →
      (∀ q ∈ s.claims.claims, q.id ≠ u.id) → s.claims.claims.length < 32 →
      Gives (.closingEvent k) s fun t => ∃ (number : Nat) (threshold : Bool),
        let reasons : Reasons := ⟨threshold, l.marks.melted, l.marks.gap, false, false⟩
        let evidence := joinedList (namedEvidence s l n) ⟨h, h⟩
        (threshold = true ↔ DoseDue s l)
        ∧ AdmittedAll s t (excursionDue l ++ [handoverOf closed u.entry c threshold false
            , .claimOpen number u.id reasons false (evidence.map (fun x => x.origin))])
        ∧ ended t (some number)
        ∧ (∀ q ∈ s.claims.claims, q.number ≠ number)
        ∧ (s.claims.nextNumber ≠ 0 → (∀ q ∈ s.claims.claims, q.number ≠ s.claims.nextNumber) → number = s.claims.nextNumber)
        ∧ t.claims.nextNumber = (if 65535 ≤ number then 1 else number + 1)
        ∧ t.claims.claims = s.claims.claims ++ [{
            number := number, seen := false, reasons := reasons, id := u.id, evidence := evidence
            records := [⟨h + 1, h + 1⟩], opened := s.time.now
            openedEpoch := s.trunk.settings.epoch, openedUnsynced := s.trunk.unsynced }]
        ∧ (t.store.status ≠ .degraded → s.store.reads = [] → t.trunk = (s.trunk.join (.claimNotice
            { kind := .opened, claim := some number, id := u.id, reasons := reasons, added := reasons, handover := h
              claimRecord := some (h + 1), evidence := evidence.length, time := s.time.now
              epoch := s.trunk.settings.epoch, unsynced := s.trunk.unsynced })).transmit))
    -- the page of its records
    ∧ ∀ f, s.store.queue = [] → s.store.fill = some f → f.records.length ≤ 5 →
      Gives (.closingEvent k) s fun t => t.store.status ≠ .degraded → ∃ made : List Record,
        made.map (fun r => r.seq) = (List.range (t.store.nextSeq - n)).map (n + ·)
        ∧ (t.store.program = some ⟨f.target, f.records ++ made⟩ ∨ t.store.closed = some ⟨f.target, f.records ++ made⟩
          ∨ t.store.fill.map (fun x => (x.target, x.records)) = some (f.target, f.records ++ made))

/-- The closing of a refused lot (R111, R112), whatever its run and evidence: a run above 300 s has its EXCURSION record first
(R110); REFUSED makes a claim due, a new claim opens on the lot's evidence and the HANDOVER record, of which, when they are nine,
the second goes (R149), and the lot is returned: at the tail of its list, RESIDENT, entered now, RETURNED, with the HANDOVER record
among its evidence and the claim's number (R86, R89, R147). The CLAIM_OPEN record gives the claim's number, consignment, reasons
and origins (R149, R207), and a CLAIM_NOTICE of kind OPENED goes out (R152). Of the reservation nothing is left. -/
def Obligations.ClosingReturns : Prop :=
  ∀ (s : State) (k : Nat) (u : TokenUse) (c : CommitField), ClosingReady s k u c →
    let l := s.lot u.entry
    let n := s.store.nextSeq
    let closed := accountClosed l n
    let h := n + (excursionDue l).length
    c.refuse = true → u.id = l.id → 1 ≤ l.zone → l.zone ≤ 8 → s.claims.rebuild = .no → (∀ q ∈ s.claims.claims, q.id ≠ u.id) →
    s.claims.claims.length < 32 →
    Gives (.closingEvent k) s fun t => ∃ (number : Nat) (threshold : Bool),
        let reasons : Reasons := ⟨threshold, l.marks.melted, l.marks.gap, true, false⟩
        let evidence := joinedList (namedEvidence s l n) ⟨h, h⟩
        (threshold = true ↔ DoseDue s l)
        ∧ AdmittedAll s t (excursionDue l ++ [handoverOf closed u.entry c threshold false
            , .claimOpen number u.id reasons false (evidence.map (fun x => x.origin))])
        ∧ t.store.reserved = s.store.reserved - 3
        ∧ t.lot u.entry = { closed with
            state := .resident, token := none, entered := s.time.now, claim := some number
            evidence := joinedList closed.evidence h
            marks := { closed.marks with returned := true, trimmed := closed.marks.trimmed || decide (8 ≤ closed.evidence.length) } }
        ∧ (∀ x, x ≠ u.entry → t.lot x = s.lot x)
        ∧ t.zoneList l.zone = (s.zoneList l.zone).filter (· != u.entry) ++ [u.entry]
        ∧ (∀ z, z ≠ l.zone → t.zoneList z = s.zoneList z) ∧ t.pool.free = s.pool.free
        ∧ t.token k = none ∧ (∀ j, j ≠ k → t.token j = s.token j)
        ∧ t.hold.closings = min 65535 (s.hold.closings + 1)
        ∧ (∀ q ∈ s.claims.claims, q.number ≠ number)
        ∧ (s.claims.nextNumber ≠ 0 → (∀ q ∈ s.claims.claims, q.number ≠ s.claims.nextNumber) → number = s.claims.nextNumber)
        ∧ t.claims.nextNumber = (if 65535 ≤ number then 1 else number + 1)
        ∧ t.claims.claims = s.claims.claims ++ [{
            number := number, seen := false, reasons := reasons, id := u.id, evidence := evidence
            records := [⟨h + 1, h + 1⟩], opened := s.time.now
            openedEpoch := s.trunk.settings.epoch, openedUnsynced := s.trunk.unsynced }]
        ∧ (t.store.status ≠ .degraded → s.store.reads = [] → t.trunk = (s.trunk.join (.claimNotice
            { kind := .opened, claim := some number, id := u.id, reasons := reasons, added := reasons, handover := h
              claimRecord := some (h + 1), evidence := evidence.length, time := s.time.now
              epoch := s.trunk.settings.epoch, unsynced := s.trunk.unsynced })).transmit)

/-- A claim due at a closing with a claim open for the consignment is added to it, with a CLAIM_ADD record that says what was
added (R150, R207), and a CLAIM_NOTICE of kind ADDED; in a table that is rebuilding or full it is dropped and counted, no claim
record is admitted, and the CLAIM_NOTICE is of kind DROPPED (R148, R151, R152). A run above 300 s has its EXCURSION record first
(R110), and of the three reserved admissions nothing is left (R112). -/
def Obligations.ClosingAddsOrDropsClaim : Prop :=
  ∀ (s : State) (k : Nat) (u : TokenUse) (c : CommitField), ClosingReady s k u c →
    let l := s.lot u.entry
    let n := s.store.nextSeq
    let closed := accountClosed l n
    let h := n + (excursionDue l).length
    let noticed := fun (t : State) (kind : NoticeKind) (claim : Option Nat) (id : ConsId) (reasons added : Reasons)
        (record : Option Nat) (evidence : Nat) =>
      t.store.status ≠ .degraded → s.store.reads = [] → t.trunk = (s.trunk.join (.claimNotice
        { kind := kind, claim := claim, id := id, reasons := reasons, added := added, handover := h, claimRecord := record
          evidence := evidence, time := s.time.now, epoch := s.trunk.settings.epoch
          unsynced := s.trunk.unsynced })).transmit
    (c.refuse = true ∨ DoseDue s l ∨ l.marks.melted = true ∨ l.marks.gap = true) →
    (s.claims.rebuild = .no → ∀ before q after, s.claims.claims = before ++ q :: after → q.id = u.id →
      (∀ x ∈ before, x.id ≠ u.id) → (∀ x ∈ before ++ after, x.number ≠ q.number) →
      Gives (.closingEvent k) s fun t =>
        t.claims.nextNumber = s.claims.nextNumber ∧ t.claims.dropped = s.claims.dropped
        ∧ t.store.reserved = s.store.reserved - 3 ∧ t.token k = none
        ∧ ∃ (threshold added : Bool) (q' : Claim), t.claims.claims = before ++ q' :: after
          ∧ q' = { q with reasons := q'.reasons, evidence := q'.evidence, records := q'.records }
          ∧ (threshold = true ↔ DoseDue s l)
          ∧ q'.reasons = ⟨q.reasons.dose || threshold, q.reasons.melted || l.marks.melted, q.reasons.gap || l.marks.gap
              , q.reasons.refused || c.refuse, q.reasons.manual⟩
          ∧ q'.evidence = (if q.evidence.length < 8 then q.evidence ++ [⟨h, h⟩] else q.evidence)
          ∧ (added = true ↔ q'.reasons ≠ q.reasons ∨ q.evidence.length < 8)
          ∧ q'.records = (if added then q.records ++ [⟨h + 1, h + 1⟩] else q.records)
          ∧ let gained : Reasons := ⟨threshold && !q.reasons.dose, l.marks.melted && !q.reasons.melted
              , l.marks.gap && !q.reasons.gap, c.refuse && !q.reasons.refused, false⟩
            AdmittedAll s t (excursionDue l ++ [handoverOf closed u.entry c threshold false
              , .claimAdd q.number q.id gained false (decide (q.evidence.length < 8)) h])
            ∧ (c.refuse = true → (t.lot u.entry).claim = some q.number)
            ∧ noticed t .added (some q.number) q.id q'.reasons gained (some (h + 1)) q'.evidence.length)
    ∧ ((s.claims.rebuild ≠ .no ∨ (∀ q ∈ s.claims.claims, q.id ≠ u.id) ∧ 32 ≤ s.claims.claims.length) →
      Gives (.closingEvent k) s fun t =>
        t.claims = { s.claims with dropped := min 65535 (s.claims.dropped + 1), raise := t.claims.raise }
        ∧ t.store.reserved = s.store.reserved - 3 ∧ t.token k = none
        ∧ ∃ threshold : Bool, (threshold = true ↔ DoseDue s l)
          ∧ AdmittedAll s t (excursionDue l ++ [handoverOf closed u.entry c threshold true])
          ∧ noticed t .dropped none l.id ⟨threshold, l.marks.melted, l.marks.gap, c.refuse, false⟩
              ⟨false, false, false, false, false⟩ none 0)

/-- LOAD_PROFILE (R73): a number outside 0..7, or limits that do not stand in order after their clamps, is BAD_PROFILE; an
accepted one writes the clamped values and the loaded mark, and returns the profile as loaded. The layout of the
answer's fields is log entry 9. -/
def Obligations.LoadProfileAnswered : Prop :=
  ∀ (s : State) (tag profile weight : Byte) (lower upper discount meltHold claimDose : BitVec 16), s.time.vdd = true →
    let load := Instr.loadProfile tag profile lower upper weight discount meltHold claimDose
    let l := max (-960) (min 960 lower.toInt)
    let h := max (-960) (min 960 upper.toInt)
    let p : Profile := ⟨true, l, h, max 1 (min 4 weight.toNat), min 960 discount.toNat, min 3600 meltHold.toNat, claimDose.toNat⟩
    let asGiven := l = lower.toInt ∧ h = upper.toInt ∧ 1 ≤ weight.toNat ∧ weight.toNat ≤ 4 ∧ discount.toNat ≤ 960
      ∧ meltHold.toNat ≤ 3600
    ((7 < profile.toNat ∨ h ≤ l) → exec load s = .next (s.answer tag 36 .badProfile []))
    ∧ (profile.toNat ≤ 7 → l < h → Gives load s fun t =>
      t = { s with pool := { s.pool with profiles := t.pool.profiles }, trunk := t.trunk }
      ∧ t.profile profile.toNat = p ∧ (∀ n, n ≠ profile.toNat → t.profile n = s.profile n)
      ∧ AnsweredAlone s t tag 36 (if asGiven then .ok else .clamped)
        [Val.temp (some l), Val.temp (some h), Val.num 1 p.weight, Val.num 2 p.discount, Val.num 2 p.meltHold,
          Val.num 2 p.claimDose])

/-- A DECLARE part that cannot join the assembly is BAD_PART: an assembly held is discarded, and nothing else changes
(R76). -/
def Obligations.DeclareBadPart : Prop :=
  ∀ (s : State) (tag part count : Byte) (d : DeclEntry), s.time.vdd = true →
    (count.toNat < 1 ∨ 8 < count.toNat ∨ part = 0 ∨ count.toNat < part.toNat
      ∨ (part ≠ 1 ∧ (s.pool.assembly = none
        ∨ ∃ a, s.pool.assembly = some a ∧ (a.count ≠ count.toNat ∨ a.entries.length + 1 ≠ part.toNat)))) →
    Gives (.declare tag part count d) s fun t =>
      t = { s with pool := { s.pool with assembly := none }, trunk := t.trunk } ∧ AnsweredAlone s t tag 37 .badPart []

/-- A DECLARE part that is taken and does not complete the declaration is PART_TAKEN (R75), its entry clamped (R77): a part 1
opens an assembly in place of any other, a later one joins it. A complete declaration that fails a check is refused whole with
the code of the first check that fails, and the part number of the first entry that fails it; its assembly ends and nothing
else changes (R78). -/
def Obligations.DeclarePartTakenOrRefused : Prop :=
  (∀ (s : State) (tag part count : Byte) (d : DeclEntry) (held : List DeclEntry) (clamped : Bool), s.time.vdd = true →
    part.toNat < count.toNat → count.toNat ≤ 8 →
    (part = 1 ∧ held = [] ∧ clamped = false
      ∨ 2 ≤ part.toNat ∧ held.length + 1 = part.toNat ∧ s.pool.assembly = some ⟨count.toNat, held, clamped⟩) →
    Gives (.declare tag part count d) s fun t =>
      AnsweredAlone s t tag 37 .partTaken [Val.num 1 part.toNat]
      ∧ ∃ d' : DeclEntry,
        t = { s with
          pool := { s.pool with assembly := some ⟨count.toNat, held ++ [d'], clamped || decide (d' ≠ d)⟩ }, trunk := t.trunk }
        ∧ d' = { d with quantity := d'.quantity, peak := d'.peak, temp := d'.temp }
        ∧ d'.quantity.toNat = max 1 d.quantity.toNat
        ∧ d'.peak.toInt = max (-960) (min 960 d.peak.toInt) ∧ d'.temp.toInt = max (-960) (min 960 d.temp.toInt))
  ∧ (∀ (s : State) (tag count : Byte) (d : DeclEntry) (held : List DeclEntry) (clamped : Bool), s.time.vdd = true →
    1 ≤ count.toNat → count.toNat ≤ 8 → held.length + 1 = count.toNat →
    (2 ≤ count.toNat → s.pool.assembly = some ⟨count.toNat, held, clamped⟩) →
    let ds := held ++ [clampEntry d]
    let refused := fun (code : Code) (vals : List Val) => Gives (.declare tag count count d) s fun t =>
      t = { s with pool := { s.pool with assembly := none }, trunk := t.trunk } ∧ AnsweredAlone s t tag 37 code vals
    let before := fun (a b : DeclEntry) => a.zone.toNat < b.zone.toNat ∨ a.zone = b.zone ∧ a.id.toNat < b.id.toNat
    let ordered := fun (l : List DeclEntry) => l.Pairwise before ∧ l.Pairwise (fun a b => a.id ≠ b.id)
    let loaded := fun (x : DeclEntry) => x.profile.toNat ≤ 7 ∧ (s.profile x.profile.toNat).loaded = true
    let zoneIn := fun (x : DeclEntry) => 1 ≤ x.zone.toNat ∧ x.zone.toNat ≤ 8 ∧ (s.zone x.zone.toNat).inService = true
    (∀ pre x post, ds = pre ++ x :: post → ordered pre → ¬ ordered (pre ++ [x]) → refused .badOrder [Val.num 1 (pre.length + 1)])
    ∧ (ordered ds →
      (∀ pre x post, ds = pre ++ x :: post → (∀ y ∈ pre, NotOnBoard s y.id) → ¬ NotOnBoard s x.id →
        refused .duplicate [Val.num 1 (pre.length + 1)])
      ∧ ((∀ x ∈ ds, NotOnBoard s x.id) →
        (∀ pre x post, ds = pre ++ x :: post → (∀ y ∈ pre, zoneIn y) → ¬ zoneIn x →
          refused .badZone [Val.num 1 (pre.length + 1)])
        ∧ ((∀ x ∈ ds, zoneIn x) →
          (∀ pre x post, ds = pre ++ x :: post → (∀ y ∈ pre, loaded y) → ¬ loaded x →
            refused .badProfile [Val.num 1 (pre.length + 1)])
          ∧ ((∀ x ∈ ds, loaded x) →
            (s.pool.free.length < ds.length → refused .noRoom [Val.num 1 s.pool.free.length])
            ∧ (ds.length ≤ s.pool.free.length → s.store.nextSeq + s.store.reserved + ds.length ≤ 4294967295 →
              s.store.roomFor ds.length = false → refused .storeBusy []))))))

/-- A complete declaration that passes its checks is taken whole (R79, R80): entries from the head of the free list in order,
each at the tail of its zone's list with the values of an allocation, LOAD records with consecutive numbers, and the answer
with the first number and the entries (its layout is log entry 9). -/
def Obligations.DeclareTaken : Prop :=
  ∀ (s : State) (tag count : Byte) (d : DeclEntry) (held : List DeclEntry) (clamped : Bool), s.time.vdd = true →
    1 ≤ count.toNat → count.toNat ≤ 8 → held.length + 1 = count.toNat →
    (if count = 1 then clamped = false else s.pool.assembly = some ⟨count.toNat, held, clamped⟩) →
    let ds := held ++ [clampEntry d]
    let n := s.store.nextSeq
    let taken := s.pool.free.take ds.length
    ds.Pairwise (fun a b => a.zone.toNat < b.zone.toNat ∨ a.zone = b.zone ∧ a.id.toNat < b.id.toNat) →
    ds.Pairwise (fun a b => a.id ≠ b.id) → (∀ x ∈ ds, NotOnBoard s x.id) →
    (∀ x ∈ ds, 1 ≤ x.zone.toNat ∧ x.zone.toNat ≤ 8 ∧ (s.zone x.zone.toNat).inService = true) →
    (∀ x ∈ ds, x.profile.toNat ≤ 7 ∧ (s.profile x.profile.toNat).loaded = true) →
    ds.length ≤ s.pool.free.length → taken.Nodup → (∀ e ∈ taken, e < 64) →
    n + s.store.reserved + ds.length ≤ 4294967295 → s.store.roomFor ds.length = true →
    Gives (.declare tag count count d) s fun t =>
      t.pool.free = s.pool.free.drop ds.length ∧ t.pool.assembly = none ∧ t.pool.profiles = s.pool.profiles
      ∧ (∀ j x e, ds[j]? = some x → s.pool.free[j]? = some e →
        t.lot e = { Lot.blank with
            state := .resident, id := x.id, profile := x.profile.toNat, quantity := x.quantity.toNat, zone := x.zone.toNat
            custodyStart := s.time.now, entered := s.time.now, asOf := s.time.now
            carriedDose := x.dose.toNat, dose := x.dose.toNat, peak := x.temp.toInt, lastTemp := x.temp.toInt
            marks := ⟨x.melted, false, false, false, false⟩, evidence := [n + j], provenance := x.provenance
            claim := (t.lot e).claim }
        ∧ ((∀ k ∈ s.claims.claims, k.id ≠ x.id) → (t.lot e).claim = none)
        ∧ (t.store.status ≠ .degraded → ∃ r : Record, Buffered t r ∧ r.seq = n + j ∧ r.kind = 2 ∧ r.time = s.time.now
          ∧ r.fields = padTo 35 (RecordBody.bytes s.time.now (.load x.id x.zone.toNat x.profile.toNat x.melted e
              x.quantity.toNat x.dose.toNat x.peak.toInt x.temp.toInt x.provenance))))
      ∧ (∀ x, x ∉ taken → t.lot x = s.lot x)
      ∧ (∀ z, t.zoneList z = s.zoneList z ++ ((ds.zip taken).filter (fun p => p.1.zone.toNat == z)).map (fun p => p.2))
      ∧ t.store.nextSeq = n + ds.length ∧ t.store.reserved = s.store.reserved
      ∧ t.zones = s.zones ∧ t.hold = s.hold ∧ t.fences = s.fences ∧ t.time = s.time ∧ t.claims.claims = s.claims.claims
      ∧ t.dose = { s.dose with retry := t.dose.retry }
      ∧ (t.store.status ≠ .degraded → s.store.reads = [] →
        AnsweredAlone s t tag 37 (if clamped = true ∨ clampEntry d ≠ d then .clamped else .ok)
          (Val.num 4 n :: Val.num 1 ds.length :: taken.map (fun e => Val.num 1 e)))

/-- MOVE (R81, R82): refused at once with the code of the first check that fails; accepted, it sends no answer, the lot is
MOVING, one admission is reserved, and the move fence is taken. The move event (R84): the lot leaves its list for the tail
of the destination's, entered now; the MOVE record is admitted and joins its evidence (R86); the lot is RESIDENT, the fence
ends, and the ANSWER goes out with the move's tag. That a second MOVE of a MOVING lot to an unusable destination is
BAD_ZONE, by the order of the table, is the model's reading (log entry 41), and so is the order of a retirement and the
joining of the list in a move event (log entry 48). -/
def Obligations.MoveDecidedAndTaken : Prop :=
  (∀ (s : State) (tag dest : Byte) (id : ConsId), s.time.vdd = true →
    let move := Instr.move tag id dest
    let refused := fun (code : Code) => exec move s = .next (s.answer tag 38 code [])
    let z := dest.toNat
    (NotOnBoard s id → refused .unknownLot)
    ∧ ∀ e, Carries s id e →
      let l := s.lot e
      let ok := 1 ≤ z ∧ z ≤ 8 ∧ (s.zone z).inService = true ∧ z ≠ l.zone
      (¬ ok → refused .badZone)
      ∧ (ok → l.state = .held → refused .held)
      ∧ (ok → (l.state = .closing ∨ l.state = .moving) → refused .busy)
      ∧ (ok → l.state = .resident → s.store.nextSeq + s.store.reserved + 1 ≤ 4294967295 →
        (s.store.roomFor 1 = false → refused .storeBusy)
        ∧ (s.store.roomFor 1 = true → Gives move s fun t =>
          t = { s with
            pool := { s.pool with lots := t.pool.lots }, zones := t.zones, fences := t.fences
            store := { s.store with reserved := s.store.reserved + 1 } }
          ∧ t.lot e = { l with state := .moving, move := some ⟨z, tag⟩ } ∧ (∀ x, x ≠ e → t.lot x = s.lot x)
          ∧ (∃ f : Fence, t.fences = s.fences ++ [f] ∧ f.owner = .move e ∧ f.entry = e ∧ f.zone = l.zone
            ∧ f.forcedWait = (s.zone l.zone).pending.isSome
            ∧ ((∀ i ∈ s.dose.queue, i.tick.zone ≠ l.zone) → f.item = none)
            ∧ ∀ before i after, s.dose.queue = before ++ i :: after → i.tick.zone = l.zone →
              (∀ j ∈ after, j.tick.zone ≠ l.zone) →
              f.item = if l.lastApplied = some i.number then none else some i.number)
          ∧ (∀ y, y ≠ l.zone → t.zone y = s.zone y) ∧ ((s.zone l.zone).pending = none → t.zones = s.zones)
          ∧ ∀ p, 1 ≤ l.zone → l.zone ≤ 8 → (s.zone l.zone).pending = some p →
            ∃ o, t.zone l.zone = { s.zone l.zone with pending := some { p with forced := some o } })))
  ∧ (∀ (s : State) (e : Nat) (m : MoveField) (f : Fence), s.time.vdd = true → e < 64 →
    let l := s.lot e
    let n := s.store.nextSeq
    l.state = .moving → l.move = some m → s.fenceOf (.move e) = some f → f.item = none → f.forcedWait = false →
    1 ≤ l.zone → l.zone ≤ 8 → 1 ≤ m.dest → m.dest ≤ 8 → m.dest ≠ l.zone →
    s.store.status ≠ .locate → s.store.hold = false →
    Gives (.moveEvent e) s fun t =>
      t.zoneList l.zone = (s.zoneList l.zone).filter (· != e)
      ∧ t.zoneList m.dest = s.zoneList m.dest ++ [e]
      ∧ (∀ z, z ≠ l.zone → z ≠ m.dest → t.zoneList z = s.zoneList z)
      ∧ t.lot e = { l with
          state := .resident, move := none, zone := m.dest, entered := s.time.now
          evidence := (t.lot e).evidence, marks := (t.lot e).marks }
      ∧ (l.evidence.length < 8 → (t.lot e).evidence = l.evidence ++ [n] ∧ (t.lot e).marks = l.marks)
      ∧ (∀ first old rest, l.evidence = first :: old :: rest → 8 ≤ l.evidence.length →
        (t.lot e).evidence = first :: rest ++ [n] ∧ (t.lot e).marks = { l.marks with trimmed := true })
      ∧ (∀ x, x ≠ e → t.lot x = s.lot x)
      ∧ Admitted s t (.move l.id l.zone m.dest l.dose l.seconds l.asOf l.peak l.marks l.run.isSome)
      ∧ t.store.reserved = s.store.reserved - 1
      ∧ (∀ g ∈ t.fences, g.owner ≠ .move e)
      ∧ t.hold = s.hold ∧ t.time = s.time ∧ t.claims.claims = s.claims.claims ∧ t.pool.free = s.pool.free
      ∧ (s.dose.cursor ≠ some e → t.zones = s.zones ∧ t.dose = { s.dose with retry := t.dose.retry }
        ∧ t.fences = s.fences.filter (fun g => g.owner != .move e))
      ∧ (t.store.status ≠ .degraded → s.store.reads = [] →
        AnsweredAlone s t m.tag 38 .ok [Val.num 4 n, Val.num 2 (min 65535 (l.dose / 960)), Val.num 4 l.asOf]))

/-- LOT_QUERY (R90): a section outside the four is BAD_SECTION; an id that no entry carries, a position beyond the list and a
zone outside 1..8 are UNKNOWN_LOT; otherwise the section as the lot stands (R91, R205). It changes nothing.
The layout of the sections but ACCOUNT, and the zeros that stand for what is absent, are log entry 9. -/
def Obligations.LotQueried : Prop :=
  ∀ (s : State) (tag sec : Byte) (sel : LotSelect), s.time.vdd = true →
    let query := Instr.lotQuery tag sel sec
    let answers := fun (code : Code) (vals : List Val) => exec query s = .next (s.answer tag 39 code vals)
    ((sec.toNat < 1 ∨ 4 < sec.toNat) → answers .badSection [])
    ∧ (1 ≤ sec.toNat → sec.toNat ≤ 4 →
      (∀ id, sel = .byId id → NotOnBoard s id → answers .unknownLot [])
      ∧ (∀ z p, sel = .byPosition z p → (z.toNat < 1 ∨ 8 < z.toNat ∨ p = 0 ∨ (s.zoneList z.toNat).length < p.toNat) →
        answers .unknownLot [])
      ∧ ∀ e, ((∃ id, sel = .byId id ∧ Carries s id e)
          ∨ ∃ z p before after, sel = .byPosition z p ∧ s.zoneList z.toNat = before ++ e :: after ∧ before.length + 1 = p.toNat) →
        let l := s.lot e
        ∃ (threshold : Bool) (run : Run), (threshold = true ↔ DoseDue s l) ∧ (∀ r, l.run = some r → run = r)
          ∧ (l.run = none → run = ⟨0, 0, 0⟩)
          ∧ (sec = 1 → answers .ok
            [Val.num 5 l.id.toNat, Val.num 1 e, Val.num 1 l.state.code, Val.num 1 l.zone,
              Val.num 1 ((l.move.map (fun m => m.dest)).getD 0),
              Val.num 1 l.profile, Val.num 2 l.quantity, Val.num 4 l.custodyStart, Val.num 4 l.entered,
                Val.num 2 (min 65535 (l.dose / 960)),
              Val.flag threshold, Val.temp (some l.peak), Val.flag l.marks.melted, Val.flag l.marks.gap, Val.flag l.marks.returned,
              Val.flag l.marks.trimmed, Val.flag l.marks.saturated, Val.flag l.token.isSome, Val.num 2 (l.claim.getD 0)])
          ∧ (sec = 2 → answers .ok
            [Val.num 5 l.id.toNat,
              Val.num 1 (e % 64 + 64 * (if l.lastApplied.isSome then 1 else 0) + 128 * (if l.run.isSome then 1 else 0)),
              Val.num 4 l.dose, Val.num 4 l.carriedDose, Val.num 4 (min 4294967295 l.seconds), Val.num 4 l.asOf,
              Val.num 2 (l.lastApplied.getD 0), Val.temp (some l.lastTemp), Val.num 2 l.meltRun, Val.num 4 run.start,
              Val.num 2 (min 65535 run.length), Val.num 2 (run.peak % 65536).toNat, Val.num 1 l.bands.b1, Val.num 1 l.bands.b2,
              Val.num 1 l.bands.b3, Val.num 1 l.bands.b4, Val.num 1 l.bands.b5, Val.num 2 l.doorOpenings,
              Val.num 3 (min 16777215 l.doorSeconds)])
          ∧ (sec = 3 → answers .ok
            ([Val.num 5 l.id.toNat, Val.num 1 e, Val.num 1 l.evidence.length] ++ l.evidence.map (fun n => Val.num 4 n)))
          ∧ (sec = 4 → ∀ q : Provenance, (l.provenance = some q ∨ l.provenance = none ∧ q = ⟨0, 0, 0⟩) → answers .ok
            [Val.num 5 l.id.toNat, Val.num 1 e, Val.flag l.provenance.isSome, Val.num 4 q.partCode.toNat,
              Val.num 4 q.recordSeq.toNat,
              Val.num 4 q.chain.toNat]))

/-! ## The custody store (spec/06) -/

/-- A record as admission makes it (R123), and a CARRY copy (R120): numbers, common fields, and a chain value over bytes 0 to
59 seeded by the last one (R122). Written to a slot, a record whose fields are in their ranges is read back whole (R139,
R206). -/
def Obligations.RecordMadeAndReadBack : Prop :=
  (∀ (s : State) (body : RecordBody),
    let r := s.makeRecord body
    r.seq = s.store.nextSeq ∧ r.origin = s.store.nextSeq ∧ r.originChain = s.store.lastChain ∧ r.kind = body.kind
      ∧ r.carry = false ∧ r.unsynced = s.trunk.unsynced ∧ r.time = s.time.now ∧ r.epoch = s.trunk.settings.epoch
      ∧ r.partCode = s.trunk.settings.partCode ∧ r.fields = padTo 35 (body.bytes s.time.now)
      ∧ r.chain = chainCrc s.store.lastChain (r.bytes.take 60) ∧ r.bytes.length = 64)
  ∧ (∀ (s : State) (old : Record),
    let r := s.makeCopy old
    r = { old with seq := s.store.nextSeq, carry := true, chain := r.chain }
      ∧ r.chain = chainCrc s.store.lastChain (r.bytes.take 60))
  ∧ ∀ r : Record, 1 ≤ r.kind → r.kind ≤ 8 → 1 ≤ r.seq → r.seq < 4294967295 → r.origin < 4294967296 → r.time < 4294967296 →
    r.epoch < 4294967296 → r.partCode < 4294967296 → r.fields.length = 35 →
    (if r.carry = true then r.origin < r.seq else r.origin = r.seq) →
    Record.ofBytes r.bytes = r ∧ Slot.ofBytes r.bytes = .record r

/-- FETCH (R137): NOT_READY while SCANNING, BUSY while another is outstanding, the record at once with the mark QUEUED from
the queue and the page buffers, NOT_FOUND outside history, and otherwise a read is asked. The read is granted on the block that
the block index gives then, and its completion answers from that block, whatever the index says by then. -/
def Obligations.FetchAnswered : Prop :=
  ∀ (s : State) (tag : Byte) (seq : Word32), s.time.vdd = true →
    let n := seq.toNat
    let fetch := Instr.fetch tag seq
    ((s.store.status = .locate ∨ s.store.status = .rebuild) → exec fetch s = .next (s.answer tag 40 .notReady []))
    ∧ ((s.store.status = .ready ∨ s.store.status = .degraded) →
      (s.store.fetch ≠ none → exec fetch s = .next (s.answer tag 40 .busy []))
      ∧ (s.store.fetch = none →
        (∀ before r after, s.store.buffered = before ++ r :: after → r.seq = n → (∀ q ∈ before, q.seq ≠ n) →
          exec fetch s = .next { s with trunk := (s.trunk.join (.fetchAnswer tag .queued r)).transmit })
        ∧ ((∀ q ∈ s.store.buffered, q.seq ≠ n) →
          (s.store.inHistory n = false → exec fetch s = .next (s.answer tag 40 .notFound []))
          ∧ (s.store.inHistory n = true → s.store.flight ≠ none →
            exec fetch s = .next { s with store := { s.store with
              fetch := some (n, tag), reads := s.store.reads ++ [.fetch n tag] } })
          ∧ (s.store.inHistory n = true → s.store.flight = none → s.store.program = none → s.store.candidate = none →
            s.store.reads = [] →
            exec fetch s = .next { s with store := { s.store with
              fetch := some (n, tag), flight := some (.read (.fetch n tag) (s.store.blockOf n)) } }))))
    ∧ ∀ b, s.store.flight = some (.read (.fetch n tag) b) → Gives .fetchRead s fun t =>
      t.store.fetch = none ∧ BeyondStoreKept s t
      ∧ (s.store.reads = [] →
        (∀ r, s.store.readRecord b n = some r →
          r.seq = n ∧ t.trunk = (s.trunk.join (.fetchAnswer tag .stored r)).transmit)
        ∧ (s.store.readRecord b n = none → AnsweredAlone s t tag 40 .notFound []))

/-- The flush timer of the fill page expires (R126, R127): in a READY store with the headroom for it the page closes and becomes
the program page, its program is asked, and a new fill page opens at the next erased page: the next of the HEAD block, or
page 0 of the first ERASED block after it (R126, R131). Where that leaves fewer than 3 ERASED blocks, the oldest HISTORY
block becomes the erase candidate with its pinned records as the carry due (R132). While SCANNING the page stays and its
flush is wanted. Before the expiry nothing happens (log entry 6). -/
def Obligations.FlushTimerCloses : Prop :=
  ∀ (s : State) (f : FillPage) (x : Nat), s.time.vdd = true → s.store.fill = some f → f.flushExpiry = some x →
    f.flushWanted = false →
    let h := s.store.headPage / 16
    (s.time.now < x → exec .flushTimerExpiry s = .next s)
    ∧ (x ≤ s.time.now → f.records ≠ [] → f.records.length < 8 → s.store.queue = [] →
      (s.store.status = .rebuild → s.store.hold = false → Gives .flushTimerExpiry s fun t =>
        BeyondStoreKept s t ∧ t.store.fill = some { f with flushWanted := true } ∧ t.store.program = s.store.program)
      ∧ (s.store.status = .ready → s.store.program = none → s.store.voiding = false → s.store.closed = none →
        s.store.candidate = none → 3 ≤ s.store.erasedBlocks → s.store.reserved + s.store.carryDue ≤ 8 * s.store.erasedPages →
        Gives .flushTimerExpiry s fun t =>
          BeyondStoreKept s t
          ∧ t.store.status = .ready ∧ t.store.program = some ⟨f.target, f.records⟩
          ∧ t.store.fill = some ⟨t.store.headPage, [], none, false⟩
          ∧ (s.store.flight = none → t.store.flight = some (.program f.target))
          ∧ (if (s.store.block h).content = .head ∧ (s.store.block h).retired = false ∧ s.store.headPage % 16 < 15 then
              t.store.headPage = s.store.headPage + 1 ∧ t.store.blocks = s.store.blocks
            else ∀ d, 1 ≤ d → d ≤ 64 → (s.store.block ((h + d) % 64)).content = .erased →
              (∀ e, 1 ≤ e → e < d → (s.store.block ((h + e) % 64)).content ≠ .erased) →
              t.store.headPage = 16 * ((h + d) % 64)
              ∧ ∀ b, b < 64 → (s.store.block b).retired = false → t.store.block b =
                if b = (h + d) % 64 then { s.store.block b with content := .head, firstSeq := none }
                else if b = h ∧ (s.store.block h).content = .head then { s.store.block b with content := .history }
                else s.store.block b)
          ∧ CandidateChosen t.store t.store))

/-- A program passes (R128): the page holds its records and void slots and no other byte of the array changes, the count
rises, each record is announced as a RECORD marked STORED, and a waiting commit whose HANDOVER record is among them gets its
STORED answer (R112). -/
def Obligations.ProgramPasses : Prop :=
  ∀ (s : State) (target : Nat) (p : PageBuf), s.time.vdd = true → s.store.flight = some (.program target) → target < 1024 →
    s.store.program = some p →
    Gives (.pageProgram true) s fun t =>
      BeyondStoreKept { s with store := { s.store with mem := t.store.mem } } t
      ∧ (∀ a, memRead t.store.mem a = if 512 * target ≤ a ∧ a < 512 * target + 512
          then (pageBytesOf p.records).getD (a - 512 * target) 0 else memRead s.store.mem a)
      ∧ t.store.programs = min 65535 (s.store.programs + 1)
      ∧ t.store.nextSeq = s.store.nextSeq ∧ t.store.lastChain = s.store.lastChain ∧ t.store.pins = s.store.pins
      ∧ (t.store.status ≠ .degraded → s.store.reads = [] →
        t.trunk = p.records.foldl (fun k r => (k.join (.record .stored r)).transmit) s.trunk)
      ∧ ∀ (a n : Nat) (r : ScannerRecord) (c : LastCommit) (f : Figures), t.store.status ≠ .degraded → 1 ≤ a → a ≤ 31 →
        (s.node a).scanner = some r → r.lastCommit = some c → c.seq = some n → c.answer = none → c.figures = some f →
        (∃ q ∈ p.records, q.seq = n) →
        (∀ b r₂ c₂, 1 ≤ b → b ≤ 31 → b ≠ a → (s.node b).scanner = some r₂ → r₂.lastCommit = some c₂ → c₂.seq ≠ some n) →
        (t.node a).scanner = some { r with lastCommit := some { c with answer := some (.stored n f), stored := true } }
        ∧ ((s.node a).outstanding = .awaited → (s.node a).liveness = .present → ScannerAnswered t a ⟨c.id, .stored n f⟩)

/-- A program fails (R129), an erase passes or fails (R135): the counts, the retired block, and the bytes of the array outside
the page or block. A failure that leaves fewer than 8 usable blocks makes the store DEGRADED; where a failure does, every
buffered record goes out as a RECORD marked NOT_STORED, waiting commits get that answer, and candidate and carry are dropped
(R129, R130, R112); the end of the admission hold and of a carry read is log entry 16. After a passed erase the test of R132
is made again. What a failed operation leaves inside is free (log entry 1). A void program that passes leaves its page void
(R142). The model's choices here: a void program completes by the same command (log entry 20) and, as it passes, leaves the
program count as it stands (log entry 43), a stalled engine that is told of a passed erase has its retry bit set (log entry
7), and a page or block outside the array, which `FlightOk` shuts out, stops as noSuchPage (log entry 37). -/
def Obligations.ArrayOperationEnds : Prop :=
  ∀ s : State, s.time.vdd = true →
    (∀ target, (s.store.flight = some (.program target) ∨ s.store.flight = some (.void target)) →
      (1024 ≤ target → ∀ pass, exec (.pageProgram pass) s = .fault .noSuchPage)
      ∧ (target < 1024 → Gives (.pageProgram false) s fun t =>
        (∀ a, (a < 512 * target ∨ 512 * target + 512 ≤ a) → memRead t.store.mem a = memRead s.store.mem a)
        ∧ t.store.programFails = min 65535 (s.store.programFails + 1) ∧ t.store.programs = s.store.programs
        ∧ (t.store.block (target / 16)).retired = true
        ∧ t.store.nextSeq = s.store.nextSeq ∧ t.store.lastChain = s.store.lastChain ∧ t.store.reserved = s.store.reserved
        ∧ (t.store.status ≠ .degraded → (s.store.closed = none ∨ s.store.fill = none) → ∀ r, Buffered s r → Buffered t r)
        ∧ t.store.usableBlocks = s.store.usableBlocks - (if (s.store.block (target / 16)).retired then 0 else 1)
        ∧ (t.store.usableBlocks < 8 → t.store.status = .degraded)
        ∧ (s.store.status ≠ .degraded → t.store.status = .degraded → (s.store.closed = none ∨ s.store.fill = none) →
          WentDegraded s t)
        ∧ t.pool = s.pool ∧ t.hold = s.hold ∧ t.zones = s.zones ∧ t.time = s.time ∧ t.claims.claims = s.claims.claims))
    ∧ (∀ target, s.store.flight = some (.void target) → target < 1024 → Gives (.pageProgram true) s fun t =>
      BeyondStoreKept { s with store := { s.store with mem := t.store.mem } } t
      ∧ (∀ a, memRead t.store.mem a = if 512 * target ≤ a ∧ a < 512 * target + 512 then 0 else memRead s.store.mem a)
      ∧ t.store.programs = s.store.programs ∧ t.store.programFails = s.store.programFails
      ∧ t.store.nextSeq = s.store.nextSeq ∧ t.store.lastChain = s.store.lastChain ∧ t.store.pins = s.store.pins)
    ∧ ∀ b, s.store.flight = some (.erase b) →
      (64 ≤ b → ∀ pass, exec (.erase pass) s = .fault .noSuchPage)
      ∧ (b < 64 →
        Gives (.erase true) s (fun t =>
          BeyondStoreKept { s with store := { s.store with mem := t.store.mem } } t
          ∧ (∀ a, memRead t.store.mem a = if 8192 * b ≤ a ∧ a < 8192 * b + 8192 then 0xFF else memRead s.store.mem a)
          ∧ t.store.erases = min 65535 (s.store.erases + 1) ∧ t.store.eraseFails = s.store.eraseFails
          ∧ (∀ f, s.store.fill = some f → f.records.length < 8 → f.flushWanted = false → s.store.flushMarks = [] →
            s.store.queue = [] → t.store.block b = { s.store.block b with content := .erased, firstSeq := none }
            ∧ (s.store.status = .ready →
              CandidateChosen (s.store.setBlock b { s.store.block b with content := .erased, firstSeq := none }) t.store))
          ∧ (s.dose.stalled = true → t.dose.retry = true))
        ∧ Gives (.erase false) s (fun t =>
          (∀ a, (a < 8192 * b ∨ 8192 * b + 8192 ≤ a) → memRead t.store.mem a = memRead s.store.mem a)
          ∧ t.store.eraseFails = min 65535 (s.store.eraseFails + 1) ∧ t.store.erases = s.store.erases
          ∧ ((∀ f, s.store.fill = some f → f.target / 16 ≠ b) → t.store.block b = ⟨true, .bare, none⟩)
          ∧ t.store.usableBlocks = s.store.usableBlocks - (if (s.store.block b).retired then 0 else 1)
          ∧ (t.store.usableBlocks < 8 → t.store.status = .degraded)
          ∧ (s.store.status ≠ .degraded → t.store.status = .degraded → (s.store.closed = none ∨ s.store.fill = none) →
            WentDegraded s t)
          ∧ t.pool = s.pool ∧ t.hold = s.hold ∧ t.zones = s.zones ∧ t.time = s.time ∧ t.claims.claims = s.claims.claims))

/-- The carry (R134): a carry read's record waits in the carry buffer while it is still pinned; its copy is admitted when the
queue has a place, the reserved admissions counted, and its number replaces the old one in the evidence lists of lots (R87)
and claims (R156), with the pin count. A copy that fails the test of numbers makes the store DEGRADED instead (R123, R129,
R130; log entry 16). That a pinned record which its read does not find leaves the buffer empty is the model's choice (log
entry 50). -/
def Obligations.CarryCopies : Prop :=
  ∀ s : State, s.time.vdd = true →
    (∀ n b, s.store.flight = some (.read (.carry n) b) → Gives .carryRead s fun t =>
      BeyondStoreKept s t ∧ t.store.nextSeq = s.store.nextSeq
      ∧ (0 < s.store.pinCount n → t.store.carryBuf = s.store.readRecord b n)
      ∧ (s.store.pinCount n = 0 → t.store.carryBuf = s.store.carryBuf))
    ∧ ∀ r, s.store.carryBuf = some r → s.store.status = .ready →
      let n := s.store.nextSeq
      (8 < s.store.queue.length + s.store.reserved + 1 → exec .carryCopy s = .next s)
      ∧ (s.store.queue.length + s.store.reserved + 1 ≤ 8 → 4294967294 < n + s.store.reserved → Gives .carryCopy s fun t =>
        t.store.status = .degraded ∧ WentDegraded s t ∧ t.store.mem = s.store.mem ∧ t.pool = s.pool
        ∧ t.claims.claims = s.claims.claims ∧ t.hold = s.hold ∧ t.zones = s.zones ∧ t.time = s.time)
      ∧ (s.store.queue.length + s.store.reserved + 1 ≤ 8 → n + s.store.reserved ≤ 4294967294 → Gives .carryCopy s fun t =>
        t.store.nextSeq = n + 1 ∧ t.store.lastChain = (s.makeCopy r).chain ∧ t.store.carryBuf = none
        ∧ t.store.mem = s.store.mem ∧ t.store.reserved = s.store.reserved
        ∧ (t.store.status ≠ .degraded → Buffered t (s.makeCopy r))
        ∧ (t.store.pins = s.store.pins.map (fun p => if p.seq = r.seq then { p with seq := n } else p))
        ∧ (∀ x, t.lot x = { s.lot x with evidence := (s.lot x).evidence.map (fun k => if k = r.seq then n else k) })
        ∧ t.claims.claims = s.claims.claims.map (fun q => { q with
            evidence := q.evidence.map (fun k => if k.current = r.seq then { k with current := n } else k)
            records := q.records.map (fun k => if k.current = r.seq then { k with current := n } else k) })
        ∧ t.pool = { s.pool with lots := t.pool.lots } ∧ t.hold = s.hold ∧ t.zones = s.zones ∧ t.time = s.time)

/-- The locate stage ends (R139 to R141): a blank store is formatted, with the blocks retired whose erase fails, and a store
with history resumes behind the last record of its newest block that R140 accepts: each record follows the one before it, void
slots are passed, and an erased slot or the block's end ends the history. From the first slot that fails on, the slots neither
erased nor void are torn: counted, and voided, or the block is retired where their void program fails. The last ERASED block of
the run ahead of the head is erased once more. The START record is admitted first, chained to that history, and the rebuild
begins or, with no page to read, is over at once. Whatever the state and the blocks, the command ends the locate
stage; in another stage it changes nothing (log entry 6). That one command ends the stage, and lists the blocks whose
operations fail, is the model's choice (log entry 25). The array is in its canonical form, which every step keeps
(`StepKeepsArrayAndTables`). -/
def Obligations.LocateEnds : Prop :=
  ∀ (s : State) (m : Mem), s.time.vdd = true → s.store = { Store.initial with mem := m } → s.claims = .initial →
    s.time.now < 4294967295 → 1 ≤ s.trunk.settings.flushDelay →
    (m = [] → Gives (.locateEnd []) s fun t =>
      t.store.status = .ready ∧ t.store.nextSeq = 2 ∧ t.store.mem = [] ∧ t.store.torn = 0
      ∧ t.store.block 0 = ⟨false, .head, some 1⟩ ∧ (∀ b, 1 ≤ b → b < 64 → t.store.block b = ⟨false, .erased, none⟩)
      ∧ t.store.headPage = 0 ∧ t.claims = { ClaimTable.initial with rebuild := .no, raise := t.claims.raise }
      ∧ ∃ r : Record, t.store.buffered = [r] ∧ r.seq = 1 ∧ r.kind = 1 ∧ r.originChain = 0xFFFFFFFF#32
        ∧ t.store.lastChain = r.chain ∧ r.fields = padTo 35 (RecordBody.bytes s.time.now (.start false 0 64 0)))
    ∧ (m = [] → ∀ fails : List Nat, Gives (.locateEnd fails) s fun t =>
      t.store.status ≠ .locate ∧ ∀ b, b < 64 → ((t.store.block b).retired = true ↔ b ∈ fails))
    ∧ (∀ (t : State) (fails : List Nat), t.time.vdd = true → t.store.status = .locate →
      Gives (.locateEnd fails) t fun u => u.store.status ≠ .locate)
    ∧ (∀ (t : State) (fails : List Nat), t.time.vdd = true → t.store.status ≠ .locate → exec (.locateEnd fails) t = .next t)
    ∧ (∀ (b : Nat) (last : Record), memWf m = true → b < 64 → Slot.ofBytes (slotAt m b 0) = .record last → last.seq < 4294967294 →
      (∀ c r, c < 64 → c ≠ b → Slot.ofBytes (slotAt m c 0) = .record r → r.seq < last.seq) →
      (∀ k, 1 ≤ k → k < 128 → Slot.ofBytes (slotAt m b k) = .erased) →
      Gives (.locateEnd []) s fun t =>
        t.store.status = .rebuild ∧ t.store.nextSeq = last.seq + 2 ∧ t.store.torn = 0
        ∧ t.store.block b = ⟨false, .head, some last.seq⟩ ∧ t.store.headPage = 16 * b + 1
        ∧ t.claims.rebuild = .claimPass 0
        ∧ (∀ a, 8192 * b ≤ a → a < 8192 * b + 8192 → memRead t.store.mem a = memRead m a)
        ∧ ∃ r : Record, t.store.buffered = [r] ∧ r.seq = last.seq + 1 ∧ r.kind = 1 ∧ r.originChain = last.chain
          ∧ t.store.lastChain = r.chain ∧ r.fields.head? = some 1)
    ∧ ∀ (b e page : Nat) (slot : Nat → Option Record) (first last : Record), memWf m = true → b < 64 →
      HistoryUpTo m b e slot first last → last.seq < 4294967294 →
      (∀ c r, c < 64 → c ≠ b → Slot.ofBytes (slotAt m c 0) = .record r → r.seq < first.seq) → HeadResumes m b page →
      (HistoryEnds m b e → Gives (.locateEnd []) s fun t =>
        ResumedBehind m s t last 0 ∧ t.store.headPage = page
        ∧ (∀ a, LastOfErasedRun m (page / 16) (a / 8192) → memRead t.store.mem a = 0xFF#8)
        ∧ ∀ a, ¬ LastOfErasedRun m (page / 16) (a / 8192) → memRead t.store.mem a = memRead m a)
      ∧ (SlotFails m b e last → ∀ ks : List Nat, ks.Nodup → (∀ k, k ∈ ks ↔ TornFrom m b e k) →
        (Gives (.locateEnd []) s fun t =>
          ResumedBehind m s t last ks.length ∧ t.store.headPage = page
          ∧ (∀ a k, k ∈ ks → 8192 * b + 64 * k ≤ a → a < 8192 * b + 64 * k + 64 → memRead t.store.mem a = 0#8)
          ∧ (∀ a, LastOfErasedRun m (page / 16) (a / 8192) → memRead t.store.mem a = 0xFF#8)
          ∧ ∀ a, (∀ k, k ∈ ks → a < 8192 * b + 64 * k ∨ 8192 * b + 64 * k + 64 ≤ a) →
            ¬ LastOfErasedRun m (page / 16) (a / 8192) → memRead t.store.mem a = memRead m a)
        ∧ ∀ c, FirstErasedAfter m b c → Gives (.locateEnd [b]) s fun t =>
          ResumedBehind m s t last ks.length ∧ t.store.headPage = 16 * c ∧ (t.store.block b).retired = true)

/-! ## Claims (spec/07) -/

/-- RAISE naming a consignment (R153) and naming a record that is still buffered (R154): the refusals in order; an open claim is
answered ALREADY_OPEN, and takes MANUAL and the record named, where it lacks them, with a CLAIM_ADD record (R155); a new one
opens on the lot's evidence, or on the record alone, with a CLAIM_OPEN record, is seen, and gives MANUAL. A record to be
read is asked of the array. -/
def Obligations.RaiseDecided : Prop :=
  ∀ (s : State) (tag : Byte) (id : ConsId) (seq : Word32), s.time.vdd = true →
    let byId := Instr.raiseById tag id
    let byRecord := Instr.raiseByRecord tag seq
    let n := s.store.nextSeq
    let answers := fun (c : Instr) (code : Code) (vals : List Val) => exec c s = .next (s.answer tag 42 code vals)
    let fresh := fun (number : Nat) => (∀ q ∈ s.claims.claims, q.number ≠ number) ∧ (s.claims.nextNumber ≠ 0 →
      (∀ q ∈ s.claims.claims, q.number ≠ s.claims.nextNumber) → number = s.claims.nextNumber)
    let opened := fun (t : State) (number : Nat) (who : ConsId) (evidence : List Named) =>
      t.claims.claims = s.claims.claims ++ [{
        number := number, seen := true, reasons := ⟨false, false, false, false, true⟩, id := who, evidence := evidence
        records := [⟨n, n⟩], opened := s.time.now, openedEpoch := s.trunk.settings.epoch
        openedUnsynced := s.trunk.unsynced }]
      ∧ Admitted s t (.claimOpen number who ⟨false, false, false, false, true⟩ true (evidence.map (fun x => x.origin)))
      ∧ (t.store.status ≠ .degraded → s.store.reads = [] → AnsweredAlone s t tag 42 .ok [Val.num 2 number, Val.num 4 n])
    let added := fun (t : State) (before : List Claim) (q : Claim) (after : List Claim) (joins : Bool) (entry : Named) =>
      t.claims.claims = before ++ { q with
        reasons := { q.reasons with manual := true }
        evidence := if joins then q.evidence ++ [entry] else q.evidence
        records := q.records ++ [⟨n, n⟩] } :: after
      ∧ t.claims.nextNumber = s.claims.nextNumber
      ∧ Admitted s t (.claimAdd q.number q.id ⟨false, false, false, false, !q.reasons.manual⟩ true joins entry.origin)
      ∧ (t.store.status ≠ .degraded → s.store.reads = [] → AnsweredAlone s t tag 42 .alreadyOpen [Val.num 2 q.number])
    (s.claims.rebuild ≠ .no → answers byId .notReady [] ∧ answers byRecord .notReady [])
    ∧ (s.claims.rebuild = .no →
      -- naming a consignment
      (NotOnBoard s id → answers byId .unknownLot [])
      ∧ (∀ e, Carries s id e →
        ((s.lot e).state = .closing → answers byId .busy [])
        ∧ ((s.lot e).state ≠ .closing →
          (∀ before q after, s.claims.claims = before ++ q :: after → q.id = id → (∀ x ∈ before, x.id ≠ id) →
            (q.reasons.manual = true → answers byId .alreadyOpen [Val.num 2 q.number])
            ∧ (q.reasons.manual = false → n + s.store.reserved ≤ 4294967294 →
              (s.store.roomFor 1 = false → answers byId .storeBusy [])
              ∧ (s.store.roomFor 1 = true → (∀ x ∈ before ++ after, x.number ≠ q.number) → Gives byId s fun t =>
                added t before q after false ⟨0, 0⟩ ∧ t.pool = s.pool ∧ t.hold = s.hold ∧ t.zones = s.zones
                ∧ t.time = s.time)))
          ∧ ((∀ q ∈ s.claims.claims, q.id ≠ id) →
            (32 ≤ s.claims.claims.length → answers byId .claimsFull [])
            ∧ (s.claims.claims.length < 32 → n + s.store.reserved ≤ 4294967294 →
              let pinned := s.pinAll (s.named (s.lot e).evidence)
              (pinned.store.roomFor 1 = false → answers byId .storeBusy [])
              ∧ (pinned.store.roomFor 1 = true → Gives byId s fun t =>
                ∃ number evidence, fresh number ∧ evidence.map (fun x : Named => x.current) = (s.lot e).evidence
                  ∧ opened t number id evidence
                  ∧ t.lot e = { s.lot e with claim := some number } ∧ (∀ x, x ≠ e → t.lot x = s.lot x)
                  ∧ t.hold = s.hold ∧ t.zones = s.zones ∧ t.time = s.time)))))
      -- naming a record
      ∧ (s.claims.raise ≠ none → answers byRecord .busy [])
      ∧ (s.claims.raise = none → s.store.inHistory seq.toNat = false → answers byRecord .notFound [])
      ∧ (s.claims.raise = none → s.store.inHistory seq.toNat = true →
        ((∀ q ∈ s.store.buffered, q.seq ≠ seq.toNat) → s.store.flight ≠ none →
          exec byRecord s = .next { s with
            store := { s.store with reads := s.store.reads ++ [.raise seq.toNat tag] }
            claims := { s.claims with raise := some (seq.toNat, tag) } })
        ∧ ∀ before r after, s.store.buffered = before ++ r :: after → r.seq = seq.toNat → (∀ q ∈ before, q.seq ≠ seq.toNat) →
          (r.kind = 1 → answers byRecord .badRecord [])
          ∧ ∀ who, r.consignment = some who →
            (∀ e, Carries s who e → (s.lot e).state = .closing → answers byRecord .busy [])
            ∧ (∀ before q after (joins : Bool), (∀ e, Carries s who e → (s.lot e).state ≠ .closing) →
              (NotOnBoard s who ∨ ∃ e, Carries s who e) → s.store.candidate = none → s.store.copies = [] →
              s.claims.claims = before ++ q :: after → q.id = who → (∀ x ∈ before, x.id ≠ who) →
              (joins = true ↔ q.evidence.length < 8 ∧ ∀ x ∈ q.evidence, x.origin ≠ r.origin) →
              (q.reasons.manual = true → joins = false → answers byRecord .alreadyOpen [Val.num 2 q.number])
              ∧ ((q.reasons.manual = false ∨ joins = true) → n + s.store.reserved ≤ 4294967294 →
                (s.store.roomFor 1 = false → answers byRecord .storeBusy [])
                ∧ (s.store.roomFor 1 = true → (∀ x ∈ before ++ after, x.number ≠ q.number) → Gives byRecord s fun t =>
                  added t before q after joins ⟨seq.toNat, r.origin⟩ ∧ t.pool = s.pool ∧ t.hold = s.hold ∧ t.zones = s.zones
                  ∧ t.time = s.time)))
            ∧ (NotOnBoard s who → (∀ q ∈ s.claims.claims, q.id ≠ who) →
              (32 ≤ s.claims.claims.length → answers byRecord .claimsFull [])
              ∧ (s.claims.claims.length < 32 → n + s.store.reserved ≤ 4294967294 → s.store.candidate = none →
                s.store.copies = [] → s.store.roomFor 1 = true → Gives byRecord s fun t =>
                  ∃ number, fresh number ∧ opened t number who [⟨seq.toNat, r.origin⟩] ∧ t.pool = s.pool
                    ∧ t.hold = s.hold ∧ t.zones = s.zones ∧ t.time = s.time))))

/-- CLAIM_READ (R157, R158) and VERDICT (R159): the refusals in order; a claim read with take becomes seen and nothing else
changes; a verdict closes the claim with a CLAIM_CLOSE record and takes its number from the lot on board.
The layout of the answers' fields is log entry 9. -/
def Obligations.ClaimReadAndVerdict : Prop :=
  ∀ (s : State) (tag take sec verdict : Byte) (number : BitVec 16), s.time.vdd = true →
    let read := Instr.claimRead tag number take sec
    let judge := Instr.verdict tag number verdict
    (s.claims.rebuild ≠ .no →
      exec read s = .next (s.answer tag 41 .notReady []) ∧ exec judge s = .next (s.answer tag 43 .notReady []))
    ∧ (s.claims.rebuild = .no →
      ((sec.toNat < 1 ∨ 3 < sec.toNat) → exec read s = .next (s.answer tag 41 .badSection []))
      ∧ ((verdict.toNat < 1 ∨ 4 ≤ verdict.toNat) → exec judge s = .next (s.answer tag 43 .badVerdict []))
      ∧ (1 ≤ sec.toNat → sec.toNat ≤ 3 →
        (number = 0 → (∀ q ∈ s.claims.claims, q.seen = true) → exec read s = .next (s.answer tag 41 .noneNew []))
        ∧ (number ≠ 0 → (∀ q ∈ s.claims.claims, q.number ≠ number.toNat) →
          exec read s = .next (s.answer tag 41 .notOpen [])))
      ∧ (1 ≤ verdict.toNat → verdict.toNat ≤ 3 → (∀ q ∈ s.claims.claims, q.number ≠ number.toNat) →
        exec judge s = .next (s.answer tag 43 .notOpen []))
      ∧ ∀ before q after, s.claims.claims = before ++ q :: after → (∀ x ∈ before ++ after, x.number ≠ q.number) →
        (1 ≤ sec.toNat → sec.toNat ≤ 3 →
          (number = 0 ∧ q.seen = false ∧ (∀ x ∈ before, x.seen = true) ∨ number ≠ 0 ∧ number.toNat = q.number) →
          Gives read s fun t =>
            t = { s with claims := { s.claims with claims := t.claims.claims }, trunk := t.trunk }
            ∧ (take = 0 → t.claims = s.claims)
            ∧ (take ≠ 0 → t.claims.claims = before ++ { q with seen := true } :: after)
            ∧ (sec = 2 → AnsweredAlone s t tag 41 .ok
              ([Val.num 2 q.number, Val.num 5 q.id.toNat] ++ q.evidence.map (fun x => Val.num 4 x.current)))
            ∧ (sec = 3 → AnsweredAlone s t tag 41 .ok
              ([Val.num 2 q.number, Val.num 5 q.id.toNat] ++ q.evidence.map (fun x => Val.num 4 x.origin)))
            ∧ (sec = 1 → ∀ first rest, q.records = first :: rest → ∀ onBoard entry,
              (onBoard = true ∧ Carries s q.id entry ∨ onBoard = false ∧ entry = 0 ∧ NotOnBoard s q.id) →
              AnsweredAlone s t tag 41 .ok
                [Val.num 2 q.number, Val.num 5 q.id.toNat, Val.num 1 (if q.seen then 1 else 0), Val.num 1 q.reasons.toNat,
                  Val.num 4 q.opened,
                  Val.num 4 q.openedEpoch, Val.flag q.openedUnsynced, Val.num 4 first.current, Val.num 1 q.evidence.length,
                  Val.num 1 q.records.length, Val.flag onBoard, Val.num 1 entry]))
        ∧ (1 ≤ verdict.toNat → verdict.toNat ≤ 3 → number.toNat = q.number →
          s.store.nextSeq + s.store.reserved ≤ 4294967294 →
          (s.store.roomFor 1 = false → exec judge s = .next (s.answer tag 43 .storeBusy []))
          ∧ (s.store.roomFor 1 = true → Gives judge s fun t =>
            (∀ first rest, q.records = first :: rest →
              Admitted s t (.claimClose q.number q.id q.reasons verdict.toNat first.origin))
            ∧ t.claims.claims = before ++ after ∧ t.claims.nextNumber = s.claims.nextNumber
            ∧ (∀ e, Carries s q.id e → t.lot e = { s.lot e with claim := none } ∧ ∀ x, x ≠ e → t.lot x = s.lot x)
            ∧ (NotOnBoard s q.id → t.pool = s.pool)
            ∧ (t.store.status ≠ .degraded → s.store.reads = [] → AnsweredAlone s t tag 43 .ok [Val.num 4 s.store.nextSeq])
            ∧ t.hold = s.hold ∧ t.zones = s.zones ∧ t.time = s.time)))

/-- A rebuild read completes (R160 to R162): in the claim pass each claim record of the page is noted once for its origin and
the highest of their claim numbers is kept; after its last page the noted records are applied in the order of their origins:
a CLAIM_OPEN reinstates an entry, a CLAIM_ADD adds to the one it names, a CLAIM_CLOSE removes it (R161). In the mapping pass
each record gives the current number of its origin; after its last page the rebuild is over, and the store leaves its
rebuild stage: in a READY store an expired flush timer closes the fill page before the test of R132 is made (R141). A
RAISE's read is decided on the record found in the block it was granted on, where it can open a claim (R154); that a read
which finds none is NOT_FOUND is the model's reading (log entry 44). -/
def Obligations.RebuildReadTaken : Prop :=
  ∀ s : State, s.time.vdd = true →
    (∀ page b, s.store.flight = some (.read (.page page) b) →
      let pages := s.store.historyPages
      let found := pageRecords s.store.mem page
      let named := fun (x : Named) => found.foldl (fun y r => if y.origin = r.origin then { y with current := r.seq } else y) x
      let claimRecords := found.filter (fun r => decide (6 ≤ r.kind ∧ r.kind ≤ 8))
      let noted := claimRecords.foldl (fun ns r => if ∃ x ∈ ns, x.origin = r.origin then ns else ns ++ [r]) s.claims.notes
      let highest := claimRecords.foldl (fun h r => max h r.claimNumber) s.claims.highest
      (∀ k, s.claims.rebuild = .claimPass k → k + 1 < pages.length → Gives .rebuildRead s fun t =>
        t.claims.rebuild = .claimPass (k + 1) ∧ t.claims.claims = s.claims.claims
        ∧ t.claims.notes = noted ∧ t.claims.highest = highest
        ∧ t.pool = s.pool ∧ t.hold = s.hold ∧ t.zones = s.zones ∧ t.time = s.time)
      ∧ (∀ k, s.claims.rebuild = .claimPass k → pages.length ≤ k + 1 → pages ≠ [] → Gives .rebuildRead s fun t =>
        t.claims.rebuild = .mappingPass 0 ∧ t.claims.notes = noted ∧ t.claims.highest = highest
        ∧ (∃ ordered : List Record, ordered.Perm t.claims.notes ∧ ordered.Pairwise (fun x y => x.origin ≤ y.origin)
          ∧ t.claims.claims = ordered.foldl applyNote [])
        ∧ t.pool = s.pool ∧ t.hold = s.hold ∧ t.zones = s.zones ∧ t.time = s.time)
      ∧ (∀ k, s.claims.rebuild = .mappingPass k → k + 1 < pages.length → Gives .rebuildRead s fun t =>
        t.claims.rebuild = .mappingPass (k + 1) ∧ t.claims.notes = s.claims.notes
        ∧ t.claims.claims = s.claims.claims.map (fun q => { q with
            evidence := q.evidence.map named, records := q.records.map named })
        ∧ t.pool = s.pool ∧ t.hold = s.hold ∧ t.zones = s.zones ∧ t.time = s.time)
      ∧ (∀ k, s.claims.rebuild = .mappingPass k → pages.length ≤ k + 1 → Gives .rebuildRead s fun t =>
        t.claims.rebuild = .no ∧ t.claims.notes = [] ∧ t.claims.highest = 0
        ∧ t.claims.nextNumber = (if s.claims.highest = 0 ∨ 65535 ≤ s.claims.highest then 1 else s.claims.highest + 1)
        ∧ t.claims.claims.map (fun q => q.number) = s.claims.claims.map (fun q => q.number)
        ∧ (∀ q ∈ t.claims.claims, q.evidence = q.records.take 1 ∨ ∀ x ∈ q.evidence, x.current ≠ 0)
        ∧ t.store.status ≠ .rebuild
        ∧ (s.store.status = .rebuild → s.store.usableBlocks < 8 → t.store.status = .degraded)
        ∧ (∀ f x, s.store.status = .rebuild → 8 ≤ s.store.usableBlocks → s.store.fill = some f → f.records ≠ [] →
          f.flushExpiry = some x → x ≤ s.time.now → s.store.queue = [] → s.store.closed = none → s.store.program = none →
          s.store.voiding = false → s.store.candidate = none → 0 < s.store.erasedPages →
          s.store.reserved + s.store.carryDue ≤ 8 * s.store.erasedPages →
          t.store.status = .ready ∧ t.store.program = some ⟨f.target, f.records⟩
          ∧ t.store.fill = some ⟨t.store.headPage, [], none, false⟩ ∧ t.store.flight = some (.program f.target)
          ∧ CandidateChosen t.store t.store)
        ∧ t.hold = s.hold ∧ t.zones = s.zones ∧ t.time = s.time))
    ∧ (∀ n tag b, s.store.flight = some (.read (.raise n tag) b) →
      (Gives .rebuildRead s fun t =>
        t.claims.raise = none
        ∧ (s.store.readRecord b n = none → s.store.reads = [] → AnsweredAlone s t tag 42 .notFound [])
        ∧ (∀ r, s.store.readRecord b n = some r → r.kind = 1 → s.store.reads = [] → AnsweredAlone s t tag 42 .badRecord [])
        ∧ t.hold = s.hold ∧ t.zones = s.zones ∧ t.time = s.time)
      -- a claim opens on the record
      ∧ ∀ r who, s.store.readRecord b n = some r → r.consignment = some who → NotOnBoard s who →
        (∀ q ∈ s.claims.claims, q.id ≠ who) →
        (32 ≤ s.claims.claims.length → Gives .rebuildRead s fun t =>
          t.claims.claims = s.claims.claims ∧ (s.store.reads = [] → AnsweredAlone s t tag 42 .claimsFull []))
        ∧ (s.claims.claims.length < 32 → s.store.nextSeq + s.store.reserved ≤ 4294967294 → s.store.candidate = none →
          s.store.copies = [] → s.store.roomFor 1 = true → Gives .rebuildRead s fun t => ∃ number : Nat,
            (∀ q ∈ s.claims.claims, q.number ≠ number)
            ∧ t.claims.claims = s.claims.claims ++ [{
                number := number, seen := true, reasons := ⟨false, false, false, false, true⟩, id := who
                evidence := [⟨n, r.origin⟩], records := [⟨s.store.nextSeq, s.store.nextSeq⟩]
                opened := s.time.now, openedEpoch := s.trunk.settings.epoch, openedUnsynced := s.trunk.unsynced }]
            ∧ Admitted s t (.claimOpen number who ⟨false, false, false, false, true⟩ true [r.origin])
            ∧ (t.store.status ≠ .degraded → s.store.reads = [] →
              AnsweredAlone s t tag 42 .ok [Val.num 2 number, Val.num 4 s.store.nextSeq])
            ∧ t.pool = s.pool))
    -- how a noted record applies
    ∧ ∀ (ks : List Claim) (r : Record) (number : Nat) (id : ConsId) (reasons : Reasons) (raised joined : Bool) (o : Nat)
        (body : RecordBody),
      number < 65536 → o < 4294967296 → r.kind = body.kind → r.fields = padTo 35 (body.bytes r.time) →
      (∀ first later, body = .claimOpen number id reasons raised (first :: later) → first < 4294967296 → later.length ≤ 7 →
        (∀ pre x y post, first :: later = pre ++ x :: y :: post → x < y ∧ y - x ≤ 16777215) →
        applyNote ks r = if ks.length < 32 ∧ ∀ q ∈ ks, q.number ≠ number ∧ q.id ≠ id then
          ks ++ [{ number := number, seen := true, reasons := reasons, id := id
                   evidence := (first :: later).map (fun x => ⟨0, x⟩), records := [⟨0, r.origin⟩], opened := r.time
                   openedEpoch := r.epoch, openedUnsynced := r.unsynced }]
          else ks)
      ∧ (body = .claimAdd number id reasons raised joined o →
        applyNote ks r = ks.map (fun q => if q.number = number ∧ q.id = id then { q with
          reasons := q.reasons.union reasons
          evidence := if joined then q.evidence ++ [⟨0, o⟩] else q.evidence
          records := if reasons ≠ ⟨false, false, false, false, false⟩ ∨ joined = true then q.records ++ [⟨0, r.origin⟩]
            else q.records } else q))
      ∧ ∀ verdict, body = .claimClose number id reasons verdict o →
        applyNote ks r = ks.filter (fun q => decide (q.number ≠ number))

/-! ## The trunk link and management (spec/08, spec/10) -/

/-- Frames and requests (R199, R200, R204): what is framed is read back whole, with no delimiter inside; the frame of every
management request is the command it stands for; a kind that is no request, and a request whose length fits no form, are the
refusals of R168. Received bytes of frames that follow one another are split into these frames and each is taken so.
`decodeTrunk` and `trunkCommands` are functions that no step calls: how a frame becomes a command is the sender's side (log
entry 11). -/
def Obligations.FramesAndRequestsReadBack : Prop :=
  (∀ (dest source kind tag : Byte) (qualifier : Nat) (body : List Byte), body.length ≤ 48 → qualifier < 4 →
    frameOf (escapeBytes (frameContent dest source kind tag qualifier body)) = some ⟨dest, source, kind, tag, body⟩
    ∧ ∀ b ∈ escapeBytes (frameContent dest source kind tag qualifier body), b ≠ 0xC3)
  ∧ (∀ (c : Instr) (tag kind : Byte) (body : List Byte), requestBody c = some (tag, kind, body) → c.wf = true →
    decodeTrunk (escapeBytes (frameContent 0 32 kind tag 0 body)) = c)
  ∧ (∀ (tag kind : Byte) (body : List Byte), body.length ≤ 48 → (kind.toNat < 32 ∨ 47 < kind.toNat) →
    decodeTrunk (escapeBytes (frameContent 0 32 kind tag 0 body)) = .badKind tag kind)
  ∧ (∀ (tag kind : Byte) (body : List Byte), body.length ≤ 48 → 32 ≤ kind.toNat → kind.toNat ≤ 47 →
    (∀ c t b, requestBody c = some (t, kind, b) → b.length ≠ body.length) →
    decodeTrunk (escapeBytes (frameContent 0 32 kind tag 0 body)) = .badLength tag kind)
  ∧ ∀ (before : List Byte) (telegrams : List Telegram), (∀ b ∈ before, b ≠ 0xC3) →
    (∀ x ∈ telegrams, x.body.length ≤ 48 ∧ x.qualifier < 4) →
    framesIn none (before ++ telegrams.flatMap Telegram.line)
      = telegrams.map (fun x => escapeBytes (frameContent 32 0 (BitVec.ofNat 8 x.kind) x.tag x.qualifier x.body))

/-- SET (R173): the first failing check refuses it and nothing changes; an accepted one writes the value, clamped into the range
of R172, and answers with it. The epoch offset clears UNSYNCED, and the wake sources, ignition and role have the mode
decided anew (R189). A change to ROAD moves the sweep timer to the earlier of its expiry and the last sweep start plus the
ROAD period, and where that is not ahead of now a sweep starts, or is owed while one runs (R2, R3, R193; that it does so in
the event of the change itself is log entry 14). The four bytes of the value in the answer are log entry 9. -/
def Obligations.SettingWritten : Prop :=
  ∀ (s : State) (tag setting : Byte) (value : Word32), s.time.vdd = true →
    let n := setting.toNat
    let v := value.toNat
    let set := Instr.set tag setting value
    let refused := fun (code : Code) => exec set s = .next (s.answer tag 32 code [])
    let e := s.trunk.settings
    let ranged := fun (lo hi : Nat) (e' : Settings) =>
      exec set s = .next { s with trunk := (({ s.trunk with settings := e' } : Trunk).join
        (.answer tag 32 (if lo ≤ v ∧ v ≤ hi then .ok else .clamped) [Val.num 1 n, Val.num 4 (max lo (min hi v))])).transmit }
    let moded := fun (e' : Settings) (w : Nat) => Gives set s fun t =>
      t = { s with coord := t.coord, trunk := t.trunk, time := t.time }
      ∧ t.trunk = (({ s.trunk with settings := e' } : Trunk).join (.answer tag 32 .ok [Val.num 1 n, Val.num 4 w])).transmit
      ∧ t.time = { s.time with mode := t.time.mode, modeChanges := t.time.modeChanges }
      ∧ t.time.mode = (if e'.depot ∨ e'.ignition ∨ s.time.now < s.time.wakeUntil then .road else .parked)
      ∧ t.time.modeChanges = (if t.time.mode = s.time.mode then s.time.modeChanges else min 65535 (s.time.modeChanges + 1))
      ∧ ((t.time.mode = s.time.mode ∨ t.time.mode = .parked) → t.coord = s.coord)
      ∧ (t.time.mode = .road → s.time.mode = .parked →
        let again := some (min 4294967295 (s.time.now + e.roadPeriod))
        ∀ x, (s.coord.lastStart = none ∧ x = s.time.now
            ∨ ∃ b, s.coord.lastStart = some b ∧ (s.coord.timer = none ∧ x = min 4294967295 (b + e.roadPeriod)
              ∨ ∃ y, s.coord.timer = some y ∧ x = min y (min 4294967295 (b + e.roadPeriod)))) →
          (s.time.now < x → t.coord = { s.coord with timer := some x })
          ∧ (x ≤ s.time.now → s.coord.phase = .sweeping → t.coord = { s.coord with owed := true, timer := again })
          ∧ (x ≤ s.time.now → s.coord.phase = .idle → t.coord = { s.coord with
              nodes := t.coord.nodes, line := t.coord.line, answers := t.coord.answers, discarded := t.coord.discarded
              phase := .sweeping, nextAddress := 1, lastStart := some s.time.now, timer := again }))
    ((n < 1 ∨ 15 < n) → refused .badSetting)
    ∧ ((n = 12 ∨ n = 13) → 1 < v → refused .badValue)
    ∧ (n = 13 → (v = 0 ∧ e.depot = true ∨ v = 1 ∧ e.depot = false) → s.pool.free.length ≠ 64 → refused .notEmpty)
    ∧ (n = 1 → ranged 1 60 { e with roadPeriod := max 1 (min 60 v) })
    ∧ (n = 2 → ranged 10 600 { e with parkedPeriod := max 10 (min 600 v) })
    ∧ (n = 3 → ranged 1 15 { e with missLimit := max 1 (min 15 v) })
    ∧ (n = 4 → ranged 0 160 { e with blindPenalty := max 0 (min 160 v) })
    ∧ (n = 5 → ranged 10 600 { e with holdLimit := max 10 (min 600 v) })
    ∧ (n = 6 → ranged 10 3600 { e with doorHeldLimit := max 10 (min 3600 v) })
    ∧ (n = 7 → ranged 10 3600 { e with pacingInterval := max 10 (min 3600 v) })
    ∧ (n = 8 → ranged 0 3600 { e with defrostAllowance := max 0 (min 3600 v) })
    ∧ (n = 9 → ranged 0 3600 { e with wakeHold := max 0 (min 3600 v) })
    ∧ (n = 10 → ranged 1 60 { e with flushDelay := max 1 (min 60 v) })
    ∧ (n = 14 → ranged 0 4294967295 { e with partCode := v })
    ∧ (n = 15 → exec set s = .next { s with trunk := (({ s.trunk with settings := { e with epoch := v }, unsynced := false }
        : Trunk).join (.answer tag 32 .ok [Val.num 1 15, Val.num 4 v])).transmit })
    ∧ (n = 11 → moded { e with wakeDoor := v.testBit 0, wakeScan := v.testBit 1, wakeAlarm := v.testBit 2 } (v % 8))
    ∧ (n = 12 → v ≤ 1 → moded { e with ignition := decide (v = 1) } v)
    ∧ (n = 13 → v ≤ 1 → (v = (if e.depot then 1 else 0) ∨ s.pool.free.length = 64) → moded { e with depot := decide (v = 1) } v)

/-- GET (R174): a setting outside the table is BAD_SETTING; otherwise the setting's current value, and with the epoch offset the
mark UNSYNCED. It changes nothing. The four bytes of the value in the answer are log entry 9. -/
def Obligations.SettingRead : Prop :=
  ∀ (s : State) (tag setting : Byte), s.time.vdd = true →
    let e := s.trunk.settings
    let answers := fun (code : Code) (vals : List Val) =>
      exec (.get tag setting) s = .next { s with trunk := (s.trunk.join (.answer tag 33 code vals)).transmit }
    let current := fun (value : Nat) => answers .ok [Val.num 4 value]
    ((setting.toNat < 1 ∨ 15 < setting.toNat) → answers .badSetting [])
    ∧ (setting = 1 → current e.roadPeriod) ∧ (setting = 2 → current e.parkedPeriod) ∧ (setting = 3 → current e.missLimit)
    ∧ (setting = 4 → current e.blindPenalty) ∧ (setting = 5 → current e.holdLimit) ∧ (setting = 6 → current e.doorHeldLimit)
    ∧ (setting = 7 → current e.pacingInterval) ∧ (setting = 8 → current e.defrostAllowance) ∧ (setting = 9 → current e.wakeHold)
    ∧ (setting = 10 → current e.flushDelay)
    ∧ (setting = 11 → current
      ((if e.wakeDoor then 1 else 0) + (if e.wakeScan then 2 else 0) + (if e.wakeAlarm then 4 else 0)))
    ∧ (setting = 12 → current (if e.ignition then 1 else 0)) ∧ (setting = 13 → current (if e.depot then 1 else 0))
    ∧ (setting = 14 → current e.partCode)
    ∧ (setting = 15 → answers .ok [Val.num 4 e.epoch, Val.flag s.trunk.unsynced])

/-- IDENTIFY (R175) and STATUS (R176) answer and change nothing: the refusals of STATUS, and its eleven sections in full (R5,
R10, R23, R64, R92, R115, R143, R164, R181, R198). What remains of a running pause is its duration less the milliseconds gone, which are
free within the seconds counted since the PAUSE and never fewer than a STATUS has shown, which alone it keeps (log entry 1). The layout of the
sections and what stands for an absent value are the model's choice (log entry 9), and so are the codes and bits that the
spec does not give: of a last commit's stage, the rebuild's pass, the sweep phase, the last wake's source, a defrost report,
a token's state and the stranger map (log entry 39). BAD_KIND and BAD_LENGTH are counted and answered with no fields (R168). -/
def Obligations.StatusAnswered : Prop :=
  ∀ (s : State) (tag sec part kind : Byte), s.time.vdd = true →
    let e := s.trunk.settings
    let status := Instr.status tag sec part
    let answers := fun (code : Code) (vals : List Val) => exec status s = .next (s.answer tag 47 code vals)
    (∃ revision : Nat, 1 ≤ revision ∧ revision ≤ 255 ∧ exec (.identify tag) s = .next (s.answer tag 46 .ok
      [Val.num 2 1207, Val.num 2 340, Val.num 1 revision, Val.num 6 Config.dieNumber.toNat, Val.num 1 64, Val.num 1 16, Val.num 1 8,
        Val.num 4 e.partCode, Val.num 1 (if e.depot then 1 else 0), Val.num 1 s.store.status.code, Val.num 4 s.time.now,
          Val.num 4 e.epoch,
        Val.flag s.trunk.unsynced, Val.num 1 s.time.cause.code, Val.num 2 s.time.warmRestarts]))
    ∧ ((sec.toNat < 1 ∨ 11 < sec.toNat) → answers .badSection [])
    ∧ (((sec = 1 ∨ sec = 7) ∧ (part.toNat < 1 ∨ 31 < part.toNat) ∨ sec = 3 ∧ (part.toNat < 1 ∨ 8 < part.toNat)
        ∨ sec = 6 ∧ 3 < part.toNat ∨ sec = 9 ∧ 1 < part.toNat
        ∨ (sec = 2 ∨ sec = 4 ∨ sec = 5 ∨ sec = 8 ∨ sec = 10 ∨ sec = 11) ∧ part ≠ 0
        ∨ sec = 7 ∧ (s.node part.toNat).scanner = none) → answers .badIndex [])
    -- NODE
    ∧ (sec = 1 → 1 ≤ part.toNat → part.toNat ≤ 31 →
      let x := s.node part.toNat
      let entry : List Val := match x.entry with
        | none => [Val.flag false]
        | some r => [Val.flag true, Val.num 1 r.role.code, Val.num 1 (r.zone.getD 0), Val.num 1 (r.offset % 256).toNat,
            Val.flag r.forward]
      let box : List Val := match x.box with
        | .probe b => [Val.temp b.value, Val.flag b.lastSeq.isSome, Val.num 1 (b.lastSeq.getD 0), Val.flag b.fresh, Val.flag b.fault,
            Val.flag b.stale, Val.num 2 b.lost]
        | .door b => [Val.num 1 b.state.code, Val.flag b.changeTime.isSome, Val.num 4 (b.changeTime.getD 0), Val.flag b.changed]
        | .unit b => [Val.num 1 b.fault.code, Val.flag b.report.isSome, Val.num 4 ((b.report.map (fun r => r.time)).getD 0),
            Val.flag ((b.report.map (fun r => r.start)).getD false)]
        | .none => if x.entry = none then [] else [Val.flag (decide (x.outstanding ≠ .clear))]
      answers .ok (entry ++ [Val.num 1 x.liveness.code, Val.num 1 x.miss] ++ box))
    -- FIELD
    ∧ (sec = 2 → part = 0 → ∃ map : Nat, map < 2 ^ 31
      ∧ (∀ a, 1 ≤ a → a ≤ 31 → (map.testBit (a - 1) = true ↔ a ∈ s.coord.strangers))
      ∧ answers .ok [Val.num 4 map, Val.num 2 s.coord.linkErrors, Val.num 2 s.coord.misfits, Val.num 2 s.coord.strangerCount,
          Val.num 2 s.coord.overruns, Val.num 2 s.coord.discarded, Val.num 1 (if s.coord.phase = .sweeping then 1 else 0),
          Val.num 1 s.coord.nextAddress, Val.flag s.coord.lastStart.isSome, Val.num 4 (s.coord.lastStart.getD 0),
          Val.num 4 (s.coord.timer.getD 0), Val.flag s.coord.owed, Val.num 1 s.coord.answers.length])
    -- DOSE
    ∧ (sec = 4 → part = 0 →
      let number := fun (i : Option DoseItem) => [Val.flag i.isSome, Val.num 2 ((i.map (fun x => x.number)).getD 0)]
      answers .ok ([Val.num 1 s.dose.queue.length] ++ number s.dose.queue.head? ++ number s.dose.queue.getLast?
        ++ [Val.num 1 ((s.dose.queue.head?.map (fun x => x.tick.zone)).getD 0), Val.flag s.dose.cursor.isSome,
          Val.num 5 ((s.dose.cursor.map (fun x => (s.lot x).id.toNat)).getD 0), Val.flag s.dose.stalled,
          Val.num 2 s.dose.stallCount, Val.num 2 s.dose.nextItem, Val.num 1 s.dose.roundRobin]))
    -- POOL
    ∧ (sec = 5 → part = 0 →
      let lots := fun (st : LotState) => Val.num 1 ((List.range 64).countP (fun x => decide ((s.lot x).state = st)))
      answers .ok ([Val.num 1 s.pool.free.length, Val.flag s.pool.free.head?.isSome, Val.num 1 (s.pool.free.head?.getD 0)]
        ++ [1, 2, 3, 4, 5, 6, 7, 8].map (fun z => Val.num 1 (s.zoneList z).length)
        ++ [lots .resident, lots .held, lots .closing, lots .moving,
          Val.num 1 ((s.pool.assembly.map (fun x => x.count)).getD 0),
          Val.num 1 ((s.pool.assembly.map (fun x => x.entries.length)).getD 0)]
        ++ [0, 1, 2, 3, 4, 5, 6, 7].map (fun p => Val.flag (s.profile p).loaded)))
    -- SCANNER
    ∧ (∀ r, sec = 7 → 1 ≤ part.toNat → part.toNat ≤ 31 → (s.node part.toNat).scanner = some r →
      let commit : List Val := match r.lastCommit with
        | none => [Val.flag false]
        | some c => [Val.flag true, Val.num 5 c.id.toNat,
            Val.num 1 (if c.answer ≠ none then 2 else if c.seq ≠ none then 1 else 0), Val.num 4 (c.seq.getD 0), Val.flag c.stored]
      answers .ok ([Val.num 1 (r.token.getD 255), Val.flag r.lastExpired.isSome,
        Val.num 5 ((r.lastExpired.map (fun x => x.toNat)).getD 0)] ++ commit))
    -- STORE
    ∧ (sec = 8 → part = 0 →
      let st := s.store
      let erased := (List.range 64).countP (fun b => decide ((st.block b).content = .erased))
      let usable := (List.range 64).countP (fun b => decide ((st.block b).retired = false))
      let head := st.block (st.headPage / 16)
      let ahead := (if head.content = .head ∧ head.retired = false then 15 - st.headPage % 16 else 0) + 16 * erased
      let unused := match st.fill with
        | some f => 8 - f.records.length
        | none => 0
      answers .ok [Val.num 1 st.status.code, Val.num 1 (st.headPage / 16), Val.num 1 (st.headPage % 16), Val.num 1 erased,
        Val.num 1 usable, Val.num 2 (unused + 8 * ahead), Val.num 1 st.queue.length, Val.num 1 st.reserved, Val.num 1 st.carryDue,
        Val.flag st.candidate.isSome, Val.num 1 (st.candidate.getD 0), Val.flag st.hold, Val.num 4 st.nextSeq,
        Val.num 4 st.lastChain.toNat, Val.num 4 (st.oldestSeq.getD 0), Val.num 2 st.torn, Val.num 2 st.programs,
        Val.num 2 st.programFails, Val.num 2 st.erases, Val.num 2 st.eraseFails, Val.flag st.fetch.isSome])
    -- CLAIM
    ∧ (sec = 9 → part.toNat ≤ 1 →
      let c := s.claims
      let pass : Nat × Nat := match c.rebuild with
        | .claimPass k => (1, k)
        | .mappingPass k => (2, k)
        | _ => (0, 0)
      answers .ok ([Val.flag (decide (c.rebuild ≠ .no)), Val.num 1 pass.1, Val.num 2 pass.2, Val.num 1 c.claims.length,
          Val.num 1 (c.claims.countP (fun k => decide (k.seen = false)))]
        ++ (if part = 0 then c.claims.take 16 else c.claims.drop 16).map (fun k => Val.num 2 k.number)
        ++ [Val.num 2 c.nextNumber, Val.num 2 c.dropped, Val.flag c.raise.isSome]))
    -- ZONE
    ∧ (sec = 3 → 1 ≤ part.toNat → part.toNat ≤ 8 →
      let z := s.zone part.toNat
      answers .ok [Val.num 1 (if z.inService then 1 else 0), Val.temp (some z.limit), Val.num 2 z.delay,
        Val.num 1 z.state.code, Val.temp z.lastValid, Val.temp z.latest, Val.num 4 z.lastTick, Val.flag z.union.isSome,
        Val.num 4 (z.union.getD 0), Val.flag z.defrost.isSome, Val.num 4 (z.defrost.getD 0), Val.num 1 z.alarms.toNat,
        Val.flag z.noticePending, Val.flag z.pending.isSome, Val.flag (z.pending.bind (fun p => p.forced)).isSome,
          Val.num 2 z.lagged])
    ∧ (sec = 6 → part.toNat ≤ 3 →
      let counts : List Val := [Val.num 2 s.hold.grants, Val.num 2 s.hold.expiries, Val.num 2 s.hold.closings]
      (s.token part.toNat = none → answers .ok ([Val.flag false] ++ counts))
      ∧ ∀ u, s.token part.toNat = some u → answers .ok ([Val.flag true, Val.num 5 u.id.toNat, Val.num 1 u.entry,
          Val.num 1 u.scanner, Val.num 4 u.taken, Val.flag u.expiry.isSome, Val.num 4 (u.expiry.getD 0)] ++ counts))
    ∧ (sec = 10 → part = 0 → Gives status s fun t =>
      t = { s with trunk := t.trunk, free := t.free } ∧ (s.trunk.pause = none → t.free = s.free)
      ∧ ∃ (remaining : Nat) (after : Option Pause),
        (s.trunk.pause = none → remaining = 0 ∧ after = none)
        ∧ (∀ p, s.trunk.pause = some p →
          let seconds := s.time.now - p.taken
          remaining ≤ p.duration ∧ after = some { p with shown := p.duration - remaining }
          ∧ remaining ≤ p.duration - p.shown ∧ remaining ≤ p.duration - 1000 * (seconds - 1)
          ∧ (s.time.now < 4294967295 → p.shown ≤ 1000 * (seconds + 1) → p.duration ≤ remaining + 1000 * (seconds + 1)))
        ∧ AnsweredAlone { s with trunk := { s.trunk with pause := after } } t tag 47 .ok
          [Val.num 1 (placesOf (s.trunk.queue.filter Entry.urgent)), Val.num 1 (bulkPlaces s.trunk.queue),
            Val.num 1 (s.trunk.queue.countP Entry.urgent), Val.num 1 (s.trunk.queue.countP (fun x => !x.urgent)),
            Val.flag s.trunk.pause.isSome, Val.num 2 remaining, Val.num 2 s.trunk.inboundDrops, Val.num 2 s.trunk.badKinds,
            Val.num 2 s.trunk.badLengths, Val.num 2 s.trunk.bulkDrops, Val.num 2 s.trunk.urgentDrops, Val.num 2 s.trunk.evictions,
            Val.num 2 s.trunk.recordDrops])
    ∧ (sec = 11 → part = 0 → answers .ok
      [Val.num 4 s.time.now, Val.num 4 e.epoch, Val.flag s.trunk.unsynced, Val.num 1 (if s.time.mode = .road then 1 else 0),
        Val.num 2 s.time.modeChanges, Val.num 1 (if e.ignition then 1 else 0), Val.num 1 (if e.depot then 1 else 0),
        Val.num 1 ((if e.wakeDoor then 1 else 0) + (if e.wakeScan then 2 else 0) + (if e.wakeAlarm then 4 else 0)),
        Val.num 2 e.wakeHold, Val.num 4 s.time.wakeUntil, Val.num 2 (s.time.wakeUntil - s.time.now),
          Val.flag s.time.lastWake.isSome,
        Val.num 1 ((s.time.lastWake.map (fun w => w.1.code)).getD 0), Val.num 4 ((s.time.lastWake.map (fun w => w.2)).getD 0),
        Val.num 1 s.time.cause.code, Val.num 2 s.time.warmRestarts, Val.flag s.time.vretLow])
    ∧ exec (.badKind tag kind) s = .next (State.answer { s with trunk := { s.trunk with
        badKinds := min 65535 (s.trunk.badKinds + 1) } } tag kind .badKind [])
    ∧ exec (.badLength tag kind) s = .next (State.answer { s with trunk := { s.trunk with
        badLengths := min 65535 (s.trunk.badLengths + 1) } } tag kind .badLength [])

/-- An entry offered to the outbound queue (R178): it joins when its telegrams fit; a bulk entry that does not fit is dropped;
for an urgent one the oldest bulk entries give way one by one until it fits, or, when all of them would not do, it is dropped.
Each drop and eviction is counted. -/
def Obligations.EntryOffered : Prop :=
  ∀ (q : Trunk) (e : Entry), placesOf q.queue ≤ 24 →
    (placesOf q.queue + e.places ≤ 24 → q.join e = { q with queue := q.queue ++ [e] })
    ∧ (24 < placesOf q.queue + e.places → e.urgent = false → q.join e = { q with
      bulkDrops := min 65535 (q.bulkDrops + 1)
      recordDrops := min 65535 (q.recordDrops + if e.isRecord then 1 else 0) })
    ∧ (24 < placesOf q.queue + e.places → e.urgent = true →
      24 + bulkPlaces q.queue < placesOf q.queue + e.places →
      q.join e = { q with urgentDrops := min 65535 (q.urgentDrops + 1) })
    ∧ (24 < placesOf q.queue + e.places → e.urgent = true →
      placesOf q.queue + e.places ≤ 24 + bulkPlaces q.queue →
      ∃ before last after, q.queue = before ++ last :: after ∧ last.urgent = false
        ∧ placesOf (before.filter Entry.urgent) + placesOf after + e.places ≤ 24
        ∧ 24 < placesOf (before.filter Entry.urgent) + last.places + placesOf after + e.places
        ∧ q.join e = { q with
          queue := before.filter Entry.urgent ++ after ++ [e]
          evictions := min 65535 (q.evictions + (before.countP (fun x => !x.urgent) + 1))
          recordDrops := min 65535 (q.recordDrops + (before.countP Entry.isRecord + if last.isRecord then 1 else 0)) })

/-- The transmitter (R179) and the pause (R180): a free transmitter takes the oldest ANSWER while a pause is in force, and else
the oldest urgent entry, and else the oldest bulk entry; a group goes on to its end; PAUSE sets or ends the pause and is
answered; at its end the transmitter chooses again. The model's choices: a PAUSE of 0 ends the pause before its ANSWER
joins, so that a transmission may start before it (log entry 26), an ALARM, CLAIM_NOTICE and FIELD_COPY have tag 0 (log
entry 51), and a PAUSE_EXPIRY without a pause changes nothing (log entry 6). -/
def Obligations.TransmitterChooses : Prop :=
  ∀ (s : State) (tag : Byte) (d : BitVec 16), s.time.vdd = true →
    (∀ q : Trunk,
      (q.sending ≠ [] → q.transmit = q)
      ∧ (q.sending = [] → (q.queue = [] ∨ q.pause ≠ none ∧ ∀ x ∈ q.queue, x.isAnswer = false) → q.transmit = q)
      ∧ ∀ before x after, q.sending = [] → q.queue = before ++ x :: after →
        (q.pause ≠ none ∧ x.isAnswer = true ∧ (∀ y ∈ before, y.isAnswer = false)
          ∨ q.pause = none ∧ x.urgent = true ∧ (∀ y ∈ before, y.urgent = false)
          ∨ q.pause = none ∧ before = [] ∧ ∀ y ∈ q.queue, y.urgent = false) →
        q.transmit = { q with queue := before ++ after, sending := x.telegrams })
    ∧ (∀ x rest, s.trunk.sending = x :: rest →
      (rest ≠ [] → exec .telegramSent s = .next { s with trunk := { s.trunk with sending := rest } })
      ∧ (rest = [] → exec .telegramSent s = .next { s with trunk := ({ s.trunk with sending := [] } : Trunk).transmit }))
    ∧ (d ≠ 0 → exec (.pause tag d) s = .next { s with trunk :=
        (({ s.trunk with pause := some ⟨d.toNat, s.time.now, 0⟩ } : Trunk).join (.answer tag 44 .ok [Val.num 2 d.toNat])).transmit })
    ∧ (d = 0 → exec (.pause tag d) s = .next { s with trunk :=
        ((({ s.trunk with pause := none } : Trunk).transmit).join (.answer tag 44 .ok [Val.num 2 0])).transmit })
    ∧ (s.trunk.pause ≠ none → exec .pauseExpiry s = .next { s with trunk := ({ s.trunk with pause := none } : Trunk).transmit })
    ∧ (s.trunk.pause = none → exec .pauseExpiry s = .next s)

/-! ## Time, supplies and restarts (spec/09) -/

/-- The warm restart, on RESTART of form WARM and on the return of VDD with a valid retention mark (R182, R194, R197): what each
block keeps and what it loses (R21, R42, R66, R94, R117, R142, R165, R183): the mailboxes are emptied but for a probe's lost
count, outstanding requests and pending answers go uncounted, and a SCAN_ANSWER or telegram on the line is completed; the
store keeps its buffers, marks, index, candidate and counts, voids the page of a program in flight before it programs the
next, asks an erase, a carry read and a rebuild read again, and drops a FETCH. Where the restart itself closes a page, tests
for a candidate or retires one, the settled store follows its own rules. A frame that is being received is dropped and
counted (R167, R183); how the model is told of one is log entry 45. A form that is neither is BAD_VALUE. -/
def Obligations.WarmRestart : Prop :=
  ∀ (s : State) (tag form : Byte),
    let programming := match s.store.flight with
      | some (.program _) => true
      | _ => false
    let asked := fun (u : State) (r : ReadReq) => r ∈ u.store.reads ∨ ∃ b, u.store.flight = some (.read r b)
    -- the buffers, the candidate test and the flush timer have nothing to do
    let still :=
      (s.store.fill = none ∧ (s.store.closed = none ∨ s.store.program ≠ none)
        ∨ ∃ f, s.store.fill = some f ∧ s.store.queue = [] ∧ f.records.length < 8 ∧ f.flushWanted = false
          ∧ (∀ x, f.flushExpiry = some x → s.time.now < x) ∧ ∀ r ∈ f.records, r.seq ∉ s.store.flushMarks)
      ∧ (s.store.candidate = none → 3 ≤ s.store.erasedBlocks)
      ∧ ∀ c, s.store.candidate = some c → (s.store.block c).retired = false
    let warm := fun (cause : Cause) (t : State) =>
      t.time.now = s.time.now ∧ t.time.wakeUntil = s.time.wakeUntil ∧ t.time.lastWake = s.time.lastWake
      ∧ t.time.cause = cause ∧ t.time.warmRestarts = min 65535 (s.time.warmRestarts + 1)
      ∧ t.time.mode = (if s.trunk.settings.depot ∨ s.trunk.settings.ignition ∨ s.time.now < s.time.wakeUntil
          then .road else .parked)
      ∧ t.trunk.settings = s.trunk.settings ∧ t.trunk.unsynced = s.trunk.unsynced ∧ t.trunk.pause = none
      ∧ t.trunk.receiving = false
      ∧ t.trunk.inboundDrops = (if s.trunk.receiving = true then min 65535 (s.trunk.inboundDrops + 1) else s.trunk.inboundDrops)
      ∧ t.dose = { s.dose with queue := [], cursor := none, stalled := false, retry := t.dose.retry } ∧ t.fences = []
      ∧ (∀ k, t.token k = none) ∧ t.hold = { s.hold with tokens := t.hold.tokens }
      ∧ (∀ x, (s.lot x).state = .free → t.lot x = s.lot x)
      ∧ (∀ x, (s.lot x).state ≠ .free → ∃ gap : Bool,
        (gap = true ↔ (s.lot x).marks.gap = true ∨ ∃ i ∈ s.dose.queue, i.tick.zone = (s.lot x).zone)
        ∧ t.lot x = { s.lot x with
            state := .resident, token := none, move := none, marks := { (s.lot x).marks with gap := gap } })
      ∧ t.pool.free = s.pool.free ∧ t.pool.lists = s.pool.lists ∧ t.pool.profiles = s.pool.profiles ∧ t.pool.assembly = none
      ∧ (∀ z, 1 ≤ z → z ≤ 8 → t.zone z = { s.zone z with
          pending := none, alarms := ⟨false, false, false, false⟩, raisedSince := ⟨false, false, false, false⟩
          clearedSince := ⟨false, false, false, false⟩, aboveSince := none, noticePending := false, lastNotice := none
          pacing := none, openDoors := [], union := none, doorCount := s.time.now, openSeconds := 0, openings := 0
          defrost := none })
      ∧ t.coord.phase = .sweeping ∧ t.coord.owed = false ∧ t.coord.nextAddress = 1 ∧ t.coord.lastStart = some s.time.now
      ∧ (t.store.status = s.store.status ∨ t.store.status = .degraded)
      ∧ (t.store.status = s.store.status →
        t.coord = { s.coord with
          nodes := t.coord.nodes, line := t.coord.line, answers := [], phase := .sweeping, nextAddress := 1
          lastStart := some s.time.now, owed := false
          timer := some (min 4294967295 (s.time.now
            + if t.time.mode = .road then s.trunk.settings.roadPeriod else s.trunk.settings.parkedPeriod)) }
        ∧ t.coord.line = (match s.coord.line with
          | .sending a r => .sending a r
          | _ => .poll 1)
        ∧ t.trunk = { s.trunk with
          queue := t.trunk.queue, sending := t.trunk.sending, pause := none, receiving := false
          inboundDrops := t.trunk.inboundDrops }
        ∧ ∀ x rest, s.trunk.sending = x :: rest → t.trunk.sending = [x])
      ∧ (∀ a, 1 ≤ a → a ≤ 31 → (t.node a).entry = (s.node a).entry ∧ (t.node a).liveness = .unknown ∧ (t.node a).miss = 0
        ∧ (t.node a).outstanding = .clear
        ∧ (∀ b, (s.node a).box = .probe b → (t.node a).box = .probe { ProbeBox.empty with lost := b.lost })
        ∧ (∀ b, (s.node a).box = .door b → (t.node a).box = .door .empty)
        ∧ (∀ b, (s.node a).box = .unit b → (t.node a).box = .unit .empty)
        ∧ ((s.node a).box = .none → (t.node a).box = .none)
        ∧ ((s.node a).scanner = none → (t.node a).scanner = none)
        ∧ ∀ r, (s.node a).scanner = some r → ∃ c, (t.node a).scanner = some ⟨none, none, c⟩
          ∧ (t.store.status = s.store.status → c = r.lastCommit))
      ∧ t.claims.claims = s.claims.claims ∧ t.claims.rebuild = s.claims.rebuild ∧ t.claims.nextNumber = s.claims.nextNumber
      ∧ t.claims.raise = none ∧ t.store.fetch = none ∧ t.store.mem = s.store.mem
      ∧ t.store.nextSeq = s.store.nextSeq ∧ t.store.lastChain = s.store.lastChain ∧ t.store.pins = s.store.pins
      ∧ t.store.reserved = s.store.reserved - (3 * s.fences.countP (fun f => match f.owner with
          | .commit _ => true
          | .move _ => false) + s.fences.countP (fun f => match f.owner with
          | .commit _ => false
          | .move _ => true))
      ∧ (∀ n k, ¬ asked t (.fetch n k) ∧ ¬ asked t (.raise n k))
      ∧ (still →
        t.store = { s.store with
          reserved := t.store.reserved, hold := t.store.hold, voiding := s.store.voiding || programming
          blocks := t.store.blocks, flight := t.store.flight, reads := t.store.reads, fetch := none }
        ∧ (s.store.hold = false ∨ t.store.headroom < t.store.demand → t.store.hold = s.store.hold)
        ∧ (∀ b, t.store.flight ≠ some (.erase b) → t.store.block b = s.store.block b)
        ∧ (∀ p target, s.store.flight = some (.program target) → s.store.program = some p → s.store.status = .ready →
          t.store.flight = some (.void p.target))
        ∧ (∀ c, s.store.flight = some (.erase c) → s.store.candidate = some c → (s.store.block c).content = .erasing →
          s.store.carryDue = 0 → (∀ k ∈ s.store.copies, k.stored = true) → s.store.program = none → s.store.status = .ready →
          t.store.flight = some (.erase c))
        ∧ (∀ n, asked s (.carry n) → s.store.inHistory n = true → asked t (.carry n))
        ∧ ∀ page, asked s (.page page) → asked t (.page page))
    (s.time.vdd = true → form.toNat ≠ 1 → form.toNat ≠ 2 →
      exec (.restartWarm tag form) s = .next (s.answer tag 45 .badValue []))
    ∧ (s.time.vdd = true → form = 1 → Gives (.restartWarm tag form) s fun t =>
      warm .restart t
      ∧ (t.store.status = s.store.status → if s.trunk.sending = [] then
          t.trunk.queue = [] ∧ t.trunk.sending = Entry.telegrams (.answer tag 45 .ok [])
        else t.trunk.queue = [.answer tag 45 .ok []]))
    ∧ (s.time.vdd = false → s.time.retention = true → Gives .vddRise s fun t =>
      warm .dip t ∧ t.time.vdd = true
      ∧ (t.store.status = s.store.status → t.trunk.queue = [] ∧ (s.trunk.sending = [] → t.trunk.sending = [])))

/-- The supplies (R194 to R196): a dip cuts off telegrams and the array operation and stops every block; in it no event is
taken; VRET lost in it makes the mark invalid, and VDD then returns to a cold start that keeps the array alone. The model's
choices: how VRET low and VDD absent together end the retention mark, in which order they fall (log entry 19), and what a cold
start leaves of the supplies' own state and of what the spec gives no value (log entries 29 and 2). -/
def Obligations.DipAndColdStart : Prop :=
  ∀ s : State,
    (s.time.vdd = true → Gives .dip s fun t =>
      t = { s with
        coord := { s.coord with line := .free }, trunk := { s.trunk with sending := [] },
          store := { s.store with mem := t.store.mem }
        time := { s.time with vdd := false, retention := s.time.retention && !s.time.vretLow }, free := t.free }
      ∧ (∀ target a, (s.store.flight = some (.program target) ∨ s.store.flight = some (.void target)) →
        (a < 512 * target ∨ 512 * target + 512 ≤ a) → memRead t.store.mem a = memRead s.store.mem a)
      ∧ (∀ b a, s.store.flight = some (.erase b) → (a < 8192 * b ∨ 8192 * b + 8192 ≤ a) →
        memRead t.store.mem a = memRead s.store.mem a)
      ∧ ((s.store.flight = none ∨ ∃ r b, s.store.flight = some (.read r b)) → t.store.mem = s.store.mem ∧ t.free = s.free))
    ∧ (s.time.vdd = false → ∀ c, c ≠ .partSecondsStep → c ≠ .vddRise → c ≠ .retentionLoss →
      (∀ low, c ≠ .retentionSupplyLow low) → exec c s = .next s)
    ∧ (s.time.vdd = false → exec .retentionLoss s
      = .next { s with time := { s.time with vretLow := true, retention := false } })
    ∧ (s.time.vdd = true → exec .retentionLoss s = .next { s with time := { s.time with vretLow := true } })
    ∧ (∀ low, exec (.retentionSupplyLow low) s = .next { s with time := { s.time with
        vretLow := low, retention := s.time.retention && (s.time.vdd || !low) } })
    ∧ (s.time.vdd = false → s.time.retention = false → Gives .vddRise s fun t =>
      t = { State.reset with
        store := { Store.initial with mem := s.store.mem }, time := { Time.initial with vretLow := s.time.vretLow }
        free := s.free, pending := s.pending }
      ∧ t.time.now = 0 ∧ t.time.mode = .parked ∧ t.time.cause = .cold ∧ t.time.warmRestarts = 0 ∧ t.time.wakeUntil = 0
      ∧ t.store.status = .locate ∧ t.claims.claims = [] ∧ (∀ x, t.lot x = .blank) ∧ t.trunk.settings = Settings.default
      ∧ t.trunk.unsynced = true)
    ∧ (s.time.vdd = true → exec .vddRise s = .next s)

/-- One second (R185, R186, R191): the counter steps with VDD or VRET and stays at its greatest value; with VDD, the step that
reaches the wake-until time has the mode decided. With VDD absent, R186's VRET valid is read as the retention mark, which
VRET's return within the dip does not mend: the model's reading (log entry 19). That the test comes within the step, before any
expiry of the same second, and that a wake-until time set by a wake hold of 1 is reached like any other, are the model's readings
(log entries 53 and 54). -/
def Obligations.SecondCounted : Prop :=
  ∀ s : State,
    let on := { s with time := { s.time with now := s.time.now + 1 } }
    (4294967295 ≤ s.time.now → exec .partSecondsStep s = .next s)
    ∧ (s.time.now < 4294967295 →
      (s.time.vdd = true → s.time.now + 1 ≠ s.time.wakeUntil → exec .partSecondsStep s = .next on)
      ∧ (s.time.vdd = true → s.time.now + 1 = s.time.wakeUntil → Gives .partSecondsStep s fun t =>
        t = { on with coord := t.coord, time := t.time }
        ∧ t.time = { on.time with mode := t.time.mode, modeChanges := t.time.modeChanges }
        ∧ t.time.mode = (if s.trunk.settings.depot ∨ s.trunk.settings.ignition then .road else .parked)
        ∧ t.time.modeChanges = (if t.time.mode = s.time.mode then s.time.modeChanges else min 65535 (s.time.modeChanges + 1))
        ∧ (t.time.mode = .parked → t.coord = s.coord))
      ∧ (s.time.vdd = false → s.time.retention = true → exec .partSecondsStep s = .next on)
      ∧ (s.time.vdd = false → s.time.retention = false → exec .partSecondsStep s = .next s))

/-! ## Every step -/

/-- Every step keeps the canonical form of the custody array, and the dose queue, the outbound queue and the claim list within
their sizes (R44, R120, R144, R177). It keeps the pages and blocks that the store controller names inside the array (R120,
R126, R136), and in such a state every command answers a next state: the fault noSuchPage, the model's own (log entry 37),
is not reached from `State.reset`. -/
def Obligations.StepKeepsArrayAndTables : Prop :=
  (∀ s t : State, ArrayOk s → TablesOk s → step s = .next t → ArrayOk t ∧ TablesOk t)
  ∧ (∀ s t : State, FlightOk s → step s = .next t → FlightOk t)
  ∧ ∀ (c : Instr) (s : State), FlightOk s → Runs c s

/-- Every step keeps the agreement of lots, zone lists, free list, tokens and scanner records: each entry is on the free list or
on the list of its zone and on no other (R70, R71); the enrolled scanners are the addresses with a scanner record (R5, R97);
and a token in use, its HELD or CLOSING lot and its scanner name each other, with no such lot and no current token beside
(R69, R96, R97). -/
def Obligations.StepKeepsCustody : Prop :=
  ∀ s t : State, CustodyOk s → step s = .next t → CustodyOk t

/-- The machine after reset has the canonical array, tables within their sizes, pages inside the array, and lots, lists and
tokens that agree, and its registers hold their cold-start values (R20, R23, R65, R93, R116, R172, R183, R196). That it is the
part after its first sweep has started, SWEEPING with the timer armed, is the model's choice (log entry 29). -/
def Obligations.ResetState : Prop :=
  ArrayOk State.reset ∧ TablesOk State.reset ∧ FlightOk State.reset ∧ CustodyOk State.reset ∧ State.reset.pending = [] ∧ State.reset.time.now = 0
    ∧ State.reset.time.mode = .parked ∧ State.reset.time.cause = .cold ∧ State.reset.trunk.unsynced = true ∧ State.reset.trunk.receiving = false
    ∧ State.reset.trunk.settings.roadPeriod = 5 ∧ State.reset.trunk.settings.parkedPeriod = 60
    ∧ State.reset.coord.phase = .sweeping ∧ State.reset.coord.timer = some 60 ∧ State.reset.store.status = .locate
    ∧ State.reset.pool.free.length = 64 ∧ (∀ k, State.reset.token k = none) ∧ State.reset.dose.roundRobin = 8
    ∧ (∀ z, State.reset.zone z = Zone.initial) ∧ ∀ a, (State.reset.node a).entry = none

/-- No command but the second's step and the cold start changes part-seconds (R185, R186), and no command but SET and the cold
start changes a setting (R172, R183). A later value of part-seconds is never less, but for the cold start. -/
def Obligations.TimeAndSettingsKept : Prop :=
  ∀ (c : Instr) (s t : State), exec c s = .next t →
    let cold := c = .vddRise ∧ s.time.vdd = false ∧ s.time.retention = false
    (t.time.now = s.time.now ∨ (c = .partSecondsStep ∧ t.time.now = s.time.now + 1 ∧ t.time.now ≤ 4294967295)
      ∨ (cold ∧ t.time.now = 0))
    ∧ (t.trunk.settings = s.trunk.settings ∨ (∃ tag n v, c = .set tag n v) ∨ (cold ∧ t.trunk.settings = Settings.default))

/-- While an entry is not free its dose never decreases, it never exceeds the greatest 32-bit count, and its marks stay set
(R56, R62). `CustodyOk`, of which the part about the free list is needed, is kept by every step (`StepKeepsCustody`). -/
def Obligations.DoseNeverFalls : Prop :=
  ∀ (c : Instr) (s t : State), exec c s = .next t → CustodyOk s →
    ∀ e, e < 64 → (s.lot e).state ≠ .free → (t.lot e).state ≠ .free →
      ((s.lot e).dose ≤ 4294967295 → (s.lot e).dose ≤ (t.lot e).dose ∧ (t.lot e).dose ≤ 4294967295)
      ∧ ((s.lot e).marks.melted = true → (t.lot e).marks.melted = true)
      ∧ ((s.lot e).marks.gap = true → (t.lot e).marks.gap = true)
      ∧ ((s.lot e).marks.returned = true → (t.lot e).marks.returned = true)
      ∧ ((s.lot e).marks.trimmed = true → (t.lot e).marks.trimmed = true)
      ∧ ((s.lot e).marks.saturated = true → (t.lot e).marks.saturated = true)
end

