-- ==== Sys2Proof/Laws/Tables.lean ====
section
/-! SUPPORT. Reading a table after writing it. -/

namespace Sys2Proof.Machine

@[simp] theorem tabGet_tabPut_same {α : Type} {n : Nat} (v : Vector α n) (i : Nat) (x d : α) (h : i < n) :
    tabGet (tabPut v i x) i d = x := by
  simp [tabGet, tabPut, h]

@[simp] theorem tabGet_tabPut_other {α : Type} {n : Nat} (v : Vector α n) (i j : Nat) (x d : α) (h : i ≠ j) :
    tabGet (tabPut v i x) j d = tabGet v j d := by
  simp [tabGet, tabPut, Vector.getElem?_setIfInBounds_ne h]

theorem tabPut_outside {α : Type} {n : Nat} (v : Vector α n) (i : Nat) (x : α) (h : n ≤ i) : tabPut v i x = v := by
  apply Vector.ext
  intro j hj
  simp [tabPut, Vector.getElem_setIfInBounds]
  omega

theorem tabGet_outside {α : Type} {n : Nat} (v : Vector α n) (i : Nat) (d : α) (h : n ≤ i) : tabGet v i d = d := by
  simp [tabGet, h]

/-- Everything a read after a write can give. -/
theorem tabGet_tabPut {α : Type} {n : Nat} (v : Vector α n) (i j : Nat) (x d : α) :
    tabGet (tabPut v i x) j d = if i = j ∧ i < n then x else tabGet v j d := by
  by_cases h : i = j
  · subst h
    by_cases hn : i < n
    · simp [hn]
    · simp [hn, tabPut_outside v i x (by omega)]
  · simp [h]

/-- Everything a read after a write can give, in a table numbered from 1. -/
theorem rowGet_rowPut {α : Type} {n : Nat} (v : Vector α n) (i j : Nat) (x d : α) :
    rowGet (rowPut v i x) j d = if i = j ∧ 1 ≤ i ∧ i ≤ n then x else rowGet v j d := by
  unfold rowGet rowPut
  by_cases hi : i = 0
  · subst hi
    simp
  · by_cases hj : j = 0
    · subst hj
      simp [hi]
    · simp only [hi, hj, if_false, tabGet_tabPut]
      by_cases h : i = j
      · subst h
        have h1 : (i - 1 < n) ↔ (1 ≤ i ∧ i ≤ n) := by omega
        simp [h1]
      · have : i - 1 ≠ j - 1 := by omega
        simp [h, this]

@[simp] theorem rowGet_rowPut_same {α : Type} {n : Nat} (v : Vector α n) (i : Nat) (x d : α) (h1 : 1 ≤ i) (h2 : i ≤ n) :
    rowGet (rowPut v i x) i d = x := by
  simp [rowGet_rowPut, h1, h2]

@[simp] theorem rowGet_rowPut_other {α : Type} {n : Nat} (v : Vector α n) (i j : Nat) (x d : α) (h : i ≠ j) :
    rowGet (rowPut v i x) j d = rowGet v j d := by
  simp [rowGet_rowPut, h]

/-- A read of a mapped table. -/
theorem tabGet_tabMap {α β : Type} {n : Nat} (f : α → β) (v : Vector α n) (i : Nat) (d : α) (h : i < n) (e : β) :
    tabGet (tabMap f v) i e = f (tabGet v i d) := by
  simp [tabGet, tabMap, h]

/-- A read of a mapped table numbered from 1. -/
theorem rowGet_tabMap {α β : Type} {n : Nat} (f : α → β) (v : Vector α n) (i : Nat) (d : α) (h1 : 1 ≤ i) (h2 : i ≤ n)
    (e : β) : rowGet (tabMap f v) i e = f (rowGet v i d) := by
  have : i ≠ 0 := by omega
  simp only [rowGet, this, if_false]
  exact tabGet_tabMap f v (i - 1) d (by omega) e

end Sys2Proof.Machine
end

