-- ==== Sys2Proof/Laws/State.lean ====
section
/-! SUPPORT. What each update of the state leaves: one lemma for each field of each update, and what a read after an
update gives. -/

namespace Sys2Proof.Machine

/-! ## setNode -/

@[simp] theorem State.setNode_zones (s : State) (a : Nat) (n : Node) : (s.setNode a n).zones = s.zones := rfl
@[simp] theorem State.setNode_dose (s : State) (a : Nat) (n : Node) : (s.setNode a n).dose = s.dose := rfl
@[simp] theorem State.setNode_fences (s : State) (a : Nat) (n : Node) : (s.setNode a n).fences = s.fences := rfl
@[simp] theorem State.setNode_pool (s : State) (a : Nat) (n : Node) : (s.setNode a n).pool = s.pool := rfl
@[simp] theorem State.setNode_hold (s : State) (a : Nat) (n : Node) : (s.setNode a n).hold = s.hold := rfl
@[simp] theorem State.setNode_store (s : State) (a : Nat) (n : Node) : (s.setNode a n).store = s.store := rfl
@[simp] theorem State.setNode_claims (s : State) (a : Nat) (n : Node) : (s.setNode a n).claims = s.claims := rfl
@[simp] theorem State.setNode_trunk (s : State) (a : Nat) (n : Node) : (s.setNode a n).trunk = s.trunk := rfl
@[simp] theorem State.setNode_time (s : State) (a : Nat) (n : Node) : (s.setNode a n).time = s.time := rfl
@[simp] theorem State.setNode_free (s : State) (a : Nat) (n : Node) : (s.setNode a n).free = s.free := rfl
@[simp] theorem State.setNode_pending (s : State) (a : Nat) (n : Node) : (s.setNode a n).pending = s.pending := rfl
@[simp] theorem State.setNode_coord_line (s : State) (a : Nat) (n : Node) : (s.setNode a n).coord.line = s.coord.line := rfl
@[simp] theorem State.setNode_coord_answers (s : State) (a : Nat) (n : Node) : (s.setNode a n).coord.answers = s.coord.answers := rfl
@[simp] theorem State.setNode_coord_phase (s : State) (a : Nat) (n : Node) : (s.setNode a n).coord.phase = s.coord.phase := rfl
@[simp] theorem State.setNode_coord_nextAddress (s : State) (a : Nat) (n : Node) : (s.setNode a n).coord.nextAddress = s.coord.nextAddress := rfl
@[simp] theorem State.setNode_coord_lastStart (s : State) (a : Nat) (n : Node) : (s.setNode a n).coord.lastStart = s.coord.lastStart := rfl
@[simp] theorem State.setNode_coord_timer (s : State) (a : Nat) (n : Node) : (s.setNode a n).coord.timer = s.coord.timer := rfl
@[simp] theorem State.setNode_coord_owed (s : State) (a : Nat) (n : Node) : (s.setNode a n).coord.owed = s.coord.owed := rfl
@[simp] theorem State.setNode_coord_strangers (s : State) (a : Nat) (n : Node) : (s.setNode a n).coord.strangers = s.coord.strangers := rfl
@[simp] theorem State.setNode_coord_linkErrors (s : State) (a : Nat) (n : Node) : (s.setNode a n).coord.linkErrors = s.coord.linkErrors := rfl
@[simp] theorem State.setNode_coord_misfits (s : State) (a : Nat) (n : Node) : (s.setNode a n).coord.misfits = s.coord.misfits := rfl
@[simp] theorem State.setNode_coord_strangerCount (s : State) (a : Nat) (n : Node) : (s.setNode a n).coord.strangerCount = s.coord.strangerCount := rfl
@[simp] theorem State.setNode_coord_overruns (s : State) (a : Nat) (n : Node) : (s.setNode a n).coord.overruns = s.coord.overruns := rfl
@[simp] theorem State.setNode_coord_discarded (s : State) (a : Nat) (n : Node) : (s.setNode a n).coord.discarded = s.coord.discarded := rfl
@[simp] theorem State.setNode_zone (s : State) (a : Nat) (n : Node) (z' : Nat) : (s.setNode a n).zone z' = s.zone z' := rfl
@[simp] theorem State.setNode_lot (s : State) (a : Nat) (n : Node) (e' : Nat) : (s.setNode a n).lot e' = s.lot e' := rfl
@[simp] theorem State.setNode_zoneList (s : State) (a : Nat) (n : Node) (z' : Nat) : (s.setNode a n).zoneList z' = s.zoneList z' := rfl
@[simp] theorem State.setNode_profile (s : State) (a : Nat) (n : Node) (p' : Nat) : (s.setNode a n).profile p' = s.profile p' := rfl
@[simp] theorem State.setNode_token (s : State) (a : Nat) (n : Node) (k' : Nat) : (s.setNode a n).token k' = s.token k' := rfl

/-! ## setZone -/

@[simp] theorem State.setZone_coord (s : State) (z : Nat) (r : Zone) : (s.setZone z r).coord = s.coord := rfl
@[simp] theorem State.setZone_dose (s : State) (z : Nat) (r : Zone) : (s.setZone z r).dose = s.dose := rfl
@[simp] theorem State.setZone_fences (s : State) (z : Nat) (r : Zone) : (s.setZone z r).fences = s.fences := rfl
@[simp] theorem State.setZone_pool (s : State) (z : Nat) (r : Zone) : (s.setZone z r).pool = s.pool := rfl
@[simp] theorem State.setZone_hold (s : State) (z : Nat) (r : Zone) : (s.setZone z r).hold = s.hold := rfl
@[simp] theorem State.setZone_store (s : State) (z : Nat) (r : Zone) : (s.setZone z r).store = s.store := rfl
@[simp] theorem State.setZone_claims (s : State) (z : Nat) (r : Zone) : (s.setZone z r).claims = s.claims := rfl
@[simp] theorem State.setZone_trunk (s : State) (z : Nat) (r : Zone) : (s.setZone z r).trunk = s.trunk := rfl
@[simp] theorem State.setZone_time (s : State) (z : Nat) (r : Zone) : (s.setZone z r).time = s.time := rfl
@[simp] theorem State.setZone_free (s : State) (z : Nat) (r : Zone) : (s.setZone z r).free = s.free := rfl
@[simp] theorem State.setZone_pending (s : State) (z : Nat) (r : Zone) : (s.setZone z r).pending = s.pending := rfl
@[simp] theorem State.setZone_node (s : State) (z : Nat) (r : Zone) (a' : Nat) : (s.setZone z r).node a' = s.node a' := rfl
@[simp] theorem State.setZone_lot (s : State) (z : Nat) (r : Zone) (e' : Nat) : (s.setZone z r).lot e' = s.lot e' := rfl
@[simp] theorem State.setZone_zoneList (s : State) (z : Nat) (r : Zone) (z' : Nat) : (s.setZone z r).zoneList z' = s.zoneList z' := rfl
@[simp] theorem State.setZone_profile (s : State) (z : Nat) (r : Zone) (p' : Nat) : (s.setZone z r).profile p' = s.profile p' := rfl
@[simp] theorem State.setZone_token (s : State) (z : Nat) (r : Zone) (k' : Nat) : (s.setZone z r).token k' = s.token k' := rfl
@[simp] theorem State.setZone_scannerRecord (s : State) (z : Nat) (r : Zone) (a' : Nat) : (s.setZone z r).scannerRecord a' = s.scannerRecord a' := rfl

/-! ## setLot -/

@[simp] theorem State.setLot_coord (s : State) (e : Nat) (l : Lot) : (s.setLot e l).coord = s.coord := rfl
@[simp] theorem State.setLot_zones (s : State) (e : Nat) (l : Lot) : (s.setLot e l).zones = s.zones := rfl
@[simp] theorem State.setLot_dose (s : State) (e : Nat) (l : Lot) : (s.setLot e l).dose = s.dose := rfl
@[simp] theorem State.setLot_fences (s : State) (e : Nat) (l : Lot) : (s.setLot e l).fences = s.fences := rfl
@[simp] theorem State.setLot_hold (s : State) (e : Nat) (l : Lot) : (s.setLot e l).hold = s.hold := rfl
@[simp] theorem State.setLot_store (s : State) (e : Nat) (l : Lot) : (s.setLot e l).store = s.store := rfl
@[simp] theorem State.setLot_claims (s : State) (e : Nat) (l : Lot) : (s.setLot e l).claims = s.claims := rfl
@[simp] theorem State.setLot_trunk (s : State) (e : Nat) (l : Lot) : (s.setLot e l).trunk = s.trunk := rfl
@[simp] theorem State.setLot_time (s : State) (e : Nat) (l : Lot) : (s.setLot e l).time = s.time := rfl
@[simp] theorem State.setLot_free (s : State) (e : Nat) (l : Lot) : (s.setLot e l).free = s.free := rfl
@[simp] theorem State.setLot_pending (s : State) (e : Nat) (l : Lot) : (s.setLot e l).pending = s.pending := rfl
@[simp] theorem State.setLot_pool_free (s : State) (e : Nat) (l : Lot) : (s.setLot e l).pool.free = s.pool.free := rfl
@[simp] theorem State.setLot_pool_lists (s : State) (e : Nat) (l : Lot) : (s.setLot e l).pool.lists = s.pool.lists := rfl
@[simp] theorem State.setLot_pool_profiles (s : State) (e : Nat) (l : Lot) : (s.setLot e l).pool.profiles = s.pool.profiles := rfl
@[simp] theorem State.setLot_pool_assembly (s : State) (e : Nat) (l : Lot) : (s.setLot e l).pool.assembly = s.pool.assembly := rfl
@[simp] theorem State.setLot_node (s : State) (e : Nat) (l : Lot) (a' : Nat) : (s.setLot e l).node a' = s.node a' := rfl
@[simp] theorem State.setLot_zone (s : State) (e : Nat) (l : Lot) (z' : Nat) : (s.setLot e l).zone z' = s.zone z' := rfl
@[simp] theorem State.setLot_zoneList (s : State) (e : Nat) (l : Lot) (z' : Nat) : (s.setLot e l).zoneList z' = s.zoneList z' := rfl
@[simp] theorem State.setLot_profile (s : State) (e : Nat) (l : Lot) (p' : Nat) : (s.setLot e l).profile p' = s.profile p' := rfl
@[simp] theorem State.setLot_token (s : State) (e : Nat) (l : Lot) (k' : Nat) : (s.setLot e l).token k' = s.token k' := rfl
@[simp] theorem State.setLot_scannerRecord (s : State) (e : Nat) (l : Lot) (a' : Nat) : (s.setLot e l).scannerRecord a' = s.scannerRecord a' := rfl

/-! ## setZoneList -/

@[simp] theorem State.setZoneList_coord (s : State) (z : Nat) (l : List Nat) : (s.setZoneList z l).coord = s.coord := rfl
@[simp] theorem State.setZoneList_zones (s : State) (z : Nat) (l : List Nat) : (s.setZoneList z l).zones = s.zones := rfl
@[simp] theorem State.setZoneList_dose (s : State) (z : Nat) (l : List Nat) : (s.setZoneList z l).dose = s.dose := rfl
@[simp] theorem State.setZoneList_fences (s : State) (z : Nat) (l : List Nat) : (s.setZoneList z l).fences = s.fences := rfl
@[simp] theorem State.setZoneList_hold (s : State) (z : Nat) (l : List Nat) : (s.setZoneList z l).hold = s.hold := rfl
@[simp] theorem State.setZoneList_store (s : State) (z : Nat) (l : List Nat) : (s.setZoneList z l).store = s.store := rfl
@[simp] theorem State.setZoneList_claims (s : State) (z : Nat) (l : List Nat) : (s.setZoneList z l).claims = s.claims := rfl
@[simp] theorem State.setZoneList_trunk (s : State) (z : Nat) (l : List Nat) : (s.setZoneList z l).trunk = s.trunk := rfl
@[simp] theorem State.setZoneList_time (s : State) (z : Nat) (l : List Nat) : (s.setZoneList z l).time = s.time := rfl
@[simp] theorem State.setZoneList_free (s : State) (z : Nat) (l : List Nat) : (s.setZoneList z l).free = s.free := rfl
@[simp] theorem State.setZoneList_pending (s : State) (z : Nat) (l : List Nat) : (s.setZoneList z l).pending = s.pending := rfl
@[simp] theorem State.setZoneList_pool_lots (s : State) (z : Nat) (l : List Nat) : (s.setZoneList z l).pool.lots = s.pool.lots := rfl
@[simp] theorem State.setZoneList_pool_free (s : State) (z : Nat) (l : List Nat) : (s.setZoneList z l).pool.free = s.pool.free := rfl
@[simp] theorem State.setZoneList_pool_profiles (s : State) (z : Nat) (l : List Nat) : (s.setZoneList z l).pool.profiles = s.pool.profiles := rfl
@[simp] theorem State.setZoneList_pool_assembly (s : State) (z : Nat) (l : List Nat) : (s.setZoneList z l).pool.assembly = s.pool.assembly := rfl
@[simp] theorem State.setZoneList_node (s : State) (z : Nat) (l : List Nat) (a' : Nat) : (s.setZoneList z l).node a' = s.node a' := rfl
@[simp] theorem State.setZoneList_zone (s : State) (z : Nat) (l : List Nat) (z' : Nat) : (s.setZoneList z l).zone z' = s.zone z' := rfl
@[simp] theorem State.setZoneList_lot (s : State) (z : Nat) (l : List Nat) (e' : Nat) : (s.setZoneList z l).lot e' = s.lot e' := rfl
@[simp] theorem State.setZoneList_profile (s : State) (z : Nat) (l : List Nat) (p' : Nat) : (s.setZoneList z l).profile p' = s.profile p' := rfl
@[simp] theorem State.setZoneList_token (s : State) (z : Nat) (l : List Nat) (k' : Nat) : (s.setZoneList z l).token k' = s.token k' := rfl
@[simp] theorem State.setZoneList_scannerRecord (s : State) (z : Nat) (l : List Nat) (a' : Nat) : (s.setZoneList z l).scannerRecord a' = s.scannerRecord a' := rfl

/-! ## setToken -/

@[simp] theorem State.setToken_coord (s : State) (k : Nat) (u : Option TokenUse) : (s.setToken k u).coord = s.coord := rfl
@[simp] theorem State.setToken_zones (s : State) (k : Nat) (u : Option TokenUse) : (s.setToken k u).zones = s.zones := rfl
@[simp] theorem State.setToken_dose (s : State) (k : Nat) (u : Option TokenUse) : (s.setToken k u).dose = s.dose := rfl
@[simp] theorem State.setToken_fences (s : State) (k : Nat) (u : Option TokenUse) : (s.setToken k u).fences = s.fences := rfl
@[simp] theorem State.setToken_pool (s : State) (k : Nat) (u : Option TokenUse) : (s.setToken k u).pool = s.pool := rfl
@[simp] theorem State.setToken_store (s : State) (k : Nat) (u : Option TokenUse) : (s.setToken k u).store = s.store := rfl
@[simp] theorem State.setToken_claims (s : State) (k : Nat) (u : Option TokenUse) : (s.setToken k u).claims = s.claims := rfl
@[simp] theorem State.setToken_trunk (s : State) (k : Nat) (u : Option TokenUse) : (s.setToken k u).trunk = s.trunk := rfl
@[simp] theorem State.setToken_time (s : State) (k : Nat) (u : Option TokenUse) : (s.setToken k u).time = s.time := rfl
@[simp] theorem State.setToken_free (s : State) (k : Nat) (u : Option TokenUse) : (s.setToken k u).free = s.free := rfl
@[simp] theorem State.setToken_pending (s : State) (k : Nat) (u : Option TokenUse) : (s.setToken k u).pending = s.pending := rfl
@[simp] theorem State.setToken_hold_grants (s : State) (k : Nat) (u : Option TokenUse) : (s.setToken k u).hold.grants = s.hold.grants := rfl
@[simp] theorem State.setToken_hold_expiries (s : State) (k : Nat) (u : Option TokenUse) : (s.setToken k u).hold.expiries = s.hold.expiries := rfl
@[simp] theorem State.setToken_hold_closings (s : State) (k : Nat) (u : Option TokenUse) : (s.setToken k u).hold.closings = s.hold.closings := rfl
@[simp] theorem State.setToken_node (s : State) (k : Nat) (u : Option TokenUse) (a' : Nat) : (s.setToken k u).node a' = s.node a' := rfl
@[simp] theorem State.setToken_zone (s : State) (k : Nat) (u : Option TokenUse) (z' : Nat) : (s.setToken k u).zone z' = s.zone z' := rfl
@[simp] theorem State.setToken_lot (s : State) (k : Nat) (u : Option TokenUse) (e' : Nat) : (s.setToken k u).lot e' = s.lot e' := rfl
@[simp] theorem State.setToken_zoneList (s : State) (k : Nat) (u : Option TokenUse) (z' : Nat) : (s.setToken k u).zoneList z' = s.zoneList z' := rfl
@[simp] theorem State.setToken_profile (s : State) (k : Nat) (u : Option TokenUse) (p' : Nat) : (s.setToken k u).profile p' = s.profile p' := rfl
@[simp] theorem State.setToken_scannerRecord (s : State) (k : Nat) (u : Option TokenUse) (a' : Nat) : (s.setToken k u).scannerRecord a' = s.scannerRecord a' := rfl

/-! ## modScanner -/

@[simp] theorem State.modScanner_zones (s : State) (a : Nat) (f : ScannerRecord → ScannerRecord) : (s.modScanner a f).zones = s.zones := rfl
@[simp] theorem State.modScanner_dose (s : State) (a : Nat) (f : ScannerRecord → ScannerRecord) : (s.modScanner a f).dose = s.dose := rfl
@[simp] theorem State.modScanner_fences (s : State) (a : Nat) (f : ScannerRecord → ScannerRecord) : (s.modScanner a f).fences = s.fences := rfl
@[simp] theorem State.modScanner_pool (s : State) (a : Nat) (f : ScannerRecord → ScannerRecord) : (s.modScanner a f).pool = s.pool := rfl
@[simp] theorem State.modScanner_hold (s : State) (a : Nat) (f : ScannerRecord → ScannerRecord) : (s.modScanner a f).hold = s.hold := rfl
@[simp] theorem State.modScanner_store (s : State) (a : Nat) (f : ScannerRecord → ScannerRecord) : (s.modScanner a f).store = s.store := rfl
@[simp] theorem State.modScanner_claims (s : State) (a : Nat) (f : ScannerRecord → ScannerRecord) : (s.modScanner a f).claims = s.claims := rfl
@[simp] theorem State.modScanner_trunk (s : State) (a : Nat) (f : ScannerRecord → ScannerRecord) : (s.modScanner a f).trunk = s.trunk := rfl
@[simp] theorem State.modScanner_time (s : State) (a : Nat) (f : ScannerRecord → ScannerRecord) : (s.modScanner a f).time = s.time := rfl
@[simp] theorem State.modScanner_free (s : State) (a : Nat) (f : ScannerRecord → ScannerRecord) : (s.modScanner a f).free = s.free := rfl
@[simp] theorem State.modScanner_pending (s : State) (a : Nat) (f : ScannerRecord → ScannerRecord) : (s.modScanner a f).pending = s.pending := rfl
@[simp] theorem State.modScanner_coord_line (s : State) (a : Nat) (f : ScannerRecord → ScannerRecord) : (s.modScanner a f).coord.line = s.coord.line := rfl
@[simp] theorem State.modScanner_coord_answers (s : State) (a : Nat) (f : ScannerRecord → ScannerRecord) : (s.modScanner a f).coord.answers = s.coord.answers := rfl
@[simp] theorem State.modScanner_coord_phase (s : State) (a : Nat) (f : ScannerRecord → ScannerRecord) : (s.modScanner a f).coord.phase = s.coord.phase := rfl
@[simp] theorem State.modScanner_coord_nextAddress (s : State) (a : Nat) (f : ScannerRecord → ScannerRecord) : (s.modScanner a f).coord.nextAddress = s.coord.nextAddress := rfl
@[simp] theorem State.modScanner_coord_lastStart (s : State) (a : Nat) (f : ScannerRecord → ScannerRecord) : (s.modScanner a f).coord.lastStart = s.coord.lastStart := rfl
@[simp] theorem State.modScanner_coord_timer (s : State) (a : Nat) (f : ScannerRecord → ScannerRecord) : (s.modScanner a f).coord.timer = s.coord.timer := rfl
@[simp] theorem State.modScanner_coord_owed (s : State) (a : Nat) (f : ScannerRecord → ScannerRecord) : (s.modScanner a f).coord.owed = s.coord.owed := rfl
@[simp] theorem State.modScanner_coord_strangers (s : State) (a : Nat) (f : ScannerRecord → ScannerRecord) : (s.modScanner a f).coord.strangers = s.coord.strangers := rfl
@[simp] theorem State.modScanner_coord_linkErrors (s : State) (a : Nat) (f : ScannerRecord → ScannerRecord) : (s.modScanner a f).coord.linkErrors = s.coord.linkErrors := rfl
@[simp] theorem State.modScanner_coord_misfits (s : State) (a : Nat) (f : ScannerRecord → ScannerRecord) : (s.modScanner a f).coord.misfits = s.coord.misfits := rfl
@[simp] theorem State.modScanner_coord_strangerCount (s : State) (a : Nat) (f : ScannerRecord → ScannerRecord) : (s.modScanner a f).coord.strangerCount = s.coord.strangerCount := rfl
@[simp] theorem State.modScanner_coord_overruns (s : State) (a : Nat) (f : ScannerRecord → ScannerRecord) : (s.modScanner a f).coord.overruns = s.coord.overruns := rfl
@[simp] theorem State.modScanner_coord_discarded (s : State) (a : Nat) (f : ScannerRecord → ScannerRecord) : (s.modScanner a f).coord.discarded = s.coord.discarded := rfl
@[simp] theorem State.modScanner_zone (s : State) (a : Nat) (f : ScannerRecord → ScannerRecord) (z' : Nat) : (s.modScanner a f).zone z' = s.zone z' := rfl
@[simp] theorem State.modScanner_lot (s : State) (a : Nat) (f : ScannerRecord → ScannerRecord) (e' : Nat) : (s.modScanner a f).lot e' = s.lot e' := rfl
@[simp] theorem State.modScanner_zoneList (s : State) (a : Nat) (f : ScannerRecord → ScannerRecord) (z' : Nat) : (s.modScanner a f).zoneList z' = s.zoneList z' := rfl
@[simp] theorem State.modScanner_profile (s : State) (a : Nat) (f : ScannerRecord → ScannerRecord) (p' : Nat) : (s.modScanner a f).profile p' = s.profile p' := rfl
@[simp] theorem State.modScanner_token (s : State) (a : Nat) (f : ScannerRecord → ScannerRecord) (k' : Nat) : (s.modScanner a f).token k' = s.token k' := rfl

/-! ## withPending -/

@[simp] theorem State.withPending_coord (s : State) (q : List Instr) : (s.withPending q).coord = s.coord := rfl
@[simp] theorem State.withPending_zones (s : State) (q : List Instr) : (s.withPending q).zones = s.zones := rfl
@[simp] theorem State.withPending_dose (s : State) (q : List Instr) : (s.withPending q).dose = s.dose := rfl
@[simp] theorem State.withPending_fences (s : State) (q : List Instr) : (s.withPending q).fences = s.fences := rfl
@[simp] theorem State.withPending_pool (s : State) (q : List Instr) : (s.withPending q).pool = s.pool := rfl
@[simp] theorem State.withPending_hold (s : State) (q : List Instr) : (s.withPending q).hold = s.hold := rfl
@[simp] theorem State.withPending_store (s : State) (q : List Instr) : (s.withPending q).store = s.store := rfl
@[simp] theorem State.withPending_claims (s : State) (q : List Instr) : (s.withPending q).claims = s.claims := rfl
@[simp] theorem State.withPending_trunk (s : State) (q : List Instr) : (s.withPending q).trunk = s.trunk := rfl
@[simp] theorem State.withPending_time (s : State) (q : List Instr) : (s.withPending q).time = s.time := rfl
@[simp] theorem State.withPending_free (s : State) (q : List Instr) : (s.withPending q).free = s.free := rfl
@[simp] theorem State.withPending_node (s : State) (q : List Instr) (a' : Nat) : (s.withPending q).node a' = s.node a' := rfl
@[simp] theorem State.withPending_zone (s : State) (q : List Instr) (z' : Nat) : (s.withPending q).zone z' = s.zone z' := rfl
@[simp] theorem State.withPending_lot (s : State) (q : List Instr) (e' : Nat) : (s.withPending q).lot e' = s.lot e' := rfl
@[simp] theorem State.withPending_zoneList (s : State) (q : List Instr) (z' : Nat) : (s.withPending q).zoneList z' = s.zoneList z' := rfl
@[simp] theorem State.withPending_profile (s : State) (q : List Instr) (p' : Nat) : (s.withPending q).profile p' = s.profile p' := rfl
@[simp] theorem State.withPending_token (s : State) (q : List Instr) (k' : Nat) : (s.withPending q).token k' = s.token k' := rfl
@[simp] theorem State.withPending_scannerRecord (s : State) (q : List Instr) (a' : Nat) : (s.withPending q).scannerRecord a' = s.scannerRecord a' := rfl

/-! ## grantLine -/

@[simp] theorem State.grantLine_zones (s : State) : (s.grantLine).zones = s.zones := rfl
@[simp] theorem State.grantLine_dose (s : State) : (s.grantLine).dose = s.dose := rfl
@[simp] theorem State.grantLine_fences (s : State) : (s.grantLine).fences = s.fences := rfl
@[simp] theorem State.grantLine_pool (s : State) : (s.grantLine).pool = s.pool := rfl
@[simp] theorem State.grantLine_hold (s : State) : (s.grantLine).hold = s.hold := rfl
@[simp] theorem State.grantLine_store (s : State) : (s.grantLine).store = s.store := rfl
@[simp] theorem State.grantLine_claims (s : State) : (s.grantLine).claims = s.claims := rfl
@[simp] theorem State.grantLine_trunk (s : State) : (s.grantLine).trunk = s.trunk := rfl
@[simp] theorem State.grantLine_time (s : State) : (s.grantLine).time = s.time := rfl
@[simp] theorem State.grantLine_free (s : State) : (s.grantLine).free = s.free := rfl
@[simp] theorem State.grantLine_pending (s : State) : (s.grantLine).pending = s.pending := rfl
@[simp] theorem State.grantLine_zone (s : State) (z' : Nat) : (s.grantLine).zone z' = s.zone z' := rfl
@[simp] theorem State.grantLine_lot (s : State) (e' : Nat) : (s.grantLine).lot e' = s.lot e' := rfl
@[simp] theorem State.grantLine_zoneList (s : State) (z' : Nat) : (s.grantLine).zoneList z' = s.zoneList z' := rfl
@[simp] theorem State.grantLine_profile (s : State) (p' : Nat) : (s.grantLine).profile p' = s.profile p' := rfl
@[simp] theorem State.grantLine_token (s : State) (k' : Nat) : (s.grantLine).token k' = s.token k' := rfl

/-! ## offer -/

@[simp] theorem State.offer_coord (s : State) (e : Entry) : (s.offer e).coord = s.coord := rfl
@[simp] theorem State.offer_zones (s : State) (e : Entry) : (s.offer e).zones = s.zones := rfl
@[simp] theorem State.offer_dose (s : State) (e : Entry) : (s.offer e).dose = s.dose := rfl
@[simp] theorem State.offer_fences (s : State) (e : Entry) : (s.offer e).fences = s.fences := rfl
@[simp] theorem State.offer_pool (s : State) (e : Entry) : (s.offer e).pool = s.pool := rfl
@[simp] theorem State.offer_hold (s : State) (e : Entry) : (s.offer e).hold = s.hold := rfl
@[simp] theorem State.offer_store (s : State) (e : Entry) : (s.offer e).store = s.store := rfl
@[simp] theorem State.offer_claims (s : State) (e : Entry) : (s.offer e).claims = s.claims := rfl
@[simp] theorem State.offer_time (s : State) (e : Entry) : (s.offer e).time = s.time := rfl
@[simp] theorem State.offer_free (s : State) (e : Entry) : (s.offer e).free = s.free := rfl
@[simp] theorem State.offer_pending (s : State) (e : Entry) : (s.offer e).pending = s.pending := rfl
@[simp] theorem State.offer_node (s : State) (e : Entry) (a' : Nat) : (s.offer e).node a' = s.node a' := rfl
@[simp] theorem State.offer_zone (s : State) (e : Entry) (z' : Nat) : (s.offer e).zone z' = s.zone z' := rfl
@[simp] theorem State.offer_lot (s : State) (e : Entry) (e' : Nat) : (s.offer e).lot e' = s.lot e' := rfl
@[simp] theorem State.offer_zoneList (s : State) (e : Entry) (z' : Nat) : (s.offer e).zoneList z' = s.zoneList z' := rfl
@[simp] theorem State.offer_profile (s : State) (e : Entry) (p' : Nat) : (s.offer e).profile p' = s.profile p' := rfl
@[simp] theorem State.offer_token (s : State) (e : Entry) (k' : Nat) : (s.offer e).token k' = s.token k' := rfl
@[simp] theorem State.offer_scannerRecord (s : State) (e : Entry) (a' : Nat) : (s.offer e).scannerRecord a' = s.scannerRecord a' := rfl

/-! ## answer -/

@[simp] theorem State.answer_coord (s : State) (tag kind : Byte) (code : Code) (vals : List Val) : (s.answer tag kind code vals).coord = s.coord := rfl
@[simp] theorem State.answer_zones (s : State) (tag kind : Byte) (code : Code) (vals : List Val) : (s.answer tag kind code vals).zones = s.zones := rfl
@[simp] theorem State.answer_dose (s : State) (tag kind : Byte) (code : Code) (vals : List Val) : (s.answer tag kind code vals).dose = s.dose := rfl
@[simp] theorem State.answer_fences (s : State) (tag kind : Byte) (code : Code) (vals : List Val) : (s.answer tag kind code vals).fences = s.fences := rfl
@[simp] theorem State.answer_pool (s : State) (tag kind : Byte) (code : Code) (vals : List Val) : (s.answer tag kind code vals).pool = s.pool := rfl
@[simp] theorem State.answer_hold (s : State) (tag kind : Byte) (code : Code) (vals : List Val) : (s.answer tag kind code vals).hold = s.hold := rfl
@[simp] theorem State.answer_store (s : State) (tag kind : Byte) (code : Code) (vals : List Val) : (s.answer tag kind code vals).store = s.store := rfl
@[simp] theorem State.answer_claims (s : State) (tag kind : Byte) (code : Code) (vals : List Val) : (s.answer tag kind code vals).claims = s.claims := rfl
@[simp] theorem State.answer_time (s : State) (tag kind : Byte) (code : Code) (vals : List Val) : (s.answer tag kind code vals).time = s.time := rfl
@[simp] theorem State.answer_free (s : State) (tag kind : Byte) (code : Code) (vals : List Val) : (s.answer tag kind code vals).free = s.free := rfl
@[simp] theorem State.answer_pending (s : State) (tag kind : Byte) (code : Code) (vals : List Val) : (s.answer tag kind code vals).pending = s.pending := rfl
@[simp] theorem State.answer_node (s : State) (tag kind : Byte) (code : Code) (vals : List Val) (a' : Nat) : (s.answer tag kind code vals).node a' = s.node a' := rfl
@[simp] theorem State.answer_zone (s : State) (tag kind : Byte) (code : Code) (vals : List Val) (z' : Nat) : (s.answer tag kind code vals).zone z' = s.zone z' := rfl
@[simp] theorem State.answer_lot (s : State) (tag kind : Byte) (code : Code) (vals : List Val) (e' : Nat) : (s.answer tag kind code vals).lot e' = s.lot e' := rfl
@[simp] theorem State.answer_zoneList (s : State) (tag kind : Byte) (code : Code) (vals : List Val) (z' : Nat) : (s.answer tag kind code vals).zoneList z' = s.zoneList z' := rfl
@[simp] theorem State.answer_profile (s : State) (tag kind : Byte) (code : Code) (vals : List Val) (p' : Nat) : (s.answer tag kind code vals).profile p' = s.profile p' := rfl
@[simp] theorem State.answer_token (s : State) (tag kind : Byte) (code : Code) (vals : List Val) (k' : Nat) : (s.answer tag kind code vals).token k' = s.token k' := rfl
@[simp] theorem State.answer_scannerRecord (s : State) (tag kind : Byte) (code : Code) (vals : List Val) (a' : Nat) : (s.answer tag kind code vals).scannerRecord a' = s.scannerRecord a' := rfl

/-! ## scramble -/

@[simp] theorem State.scramble_coord (s : State) (a n : Nat) : (s.scramble a n).coord = s.coord := rfl
@[simp] theorem State.scramble_zones (s : State) (a n : Nat) : (s.scramble a n).zones = s.zones := rfl
@[simp] theorem State.scramble_dose (s : State) (a n : Nat) : (s.scramble a n).dose = s.dose := rfl
@[simp] theorem State.scramble_fences (s : State) (a n : Nat) : (s.scramble a n).fences = s.fences := rfl
@[simp] theorem State.scramble_pool (s : State) (a n : Nat) : (s.scramble a n).pool = s.pool := rfl
@[simp] theorem State.scramble_hold (s : State) (a n : Nat) : (s.scramble a n).hold = s.hold := rfl
@[simp] theorem State.scramble_claims (s : State) (a n : Nat) : (s.scramble a n).claims = s.claims := rfl
@[simp] theorem State.scramble_trunk (s : State) (a n : Nat) : (s.scramble a n).trunk = s.trunk := rfl
@[simp] theorem State.scramble_time (s : State) (a n : Nat) : (s.scramble a n).time = s.time := rfl
@[simp] theorem State.scramble_pending (s : State) (a n : Nat) : (s.scramble a n).pending = s.pending := rfl
@[simp] theorem State.scramble_store_status (s : State) (a n : Nat) : (s.scramble a n).store.status = s.store.status := rfl
@[simp] theorem State.scramble_store_queue (s : State) (a n : Nat) : (s.scramble a n).store.queue = s.store.queue := rfl
@[simp] theorem State.scramble_store_fill (s : State) (a n : Nat) : (s.scramble a n).store.fill = s.store.fill := rfl
@[simp] theorem State.scramble_store_closed (s : State) (a n : Nat) : (s.scramble a n).store.closed = s.store.closed := rfl
@[simp] theorem State.scramble_store_program (s : State) (a n : Nat) : (s.scramble a n).store.program = s.store.program := rfl
@[simp] theorem State.scramble_store_voiding (s : State) (a n : Nat) : (s.scramble a n).store.voiding = s.store.voiding := rfl
@[simp] theorem State.scramble_store_flushMarks (s : State) (a n : Nat) : (s.scramble a n).store.flushMarks = s.store.flushMarks := rfl
@[simp] theorem State.scramble_store_blocks (s : State) (a n : Nat) : (s.scramble a n).store.blocks = s.store.blocks := rfl
@[simp] theorem State.scramble_store_headPage (s : State) (a n : Nat) : (s.scramble a n).store.headPage = s.store.headPage := rfl
@[simp] theorem State.scramble_store_candidate (s : State) (a n : Nat) : (s.scramble a n).store.candidate = s.store.candidate := rfl
@[simp] theorem State.scramble_store_copies (s : State) (a n : Nat) : (s.scramble a n).store.copies = s.store.copies := rfl
@[simp] theorem State.scramble_store_carryDue (s : State) (a n : Nat) : (s.scramble a n).store.carryDue = s.store.carryDue := rfl
@[simp] theorem State.scramble_store_carryBuf (s : State) (a n : Nat) : (s.scramble a n).store.carryBuf = s.store.carryBuf := rfl
@[simp] theorem State.scramble_store_pins (s : State) (a n : Nat) : (s.scramble a n).store.pins = s.store.pins := rfl
@[simp] theorem State.scramble_store_flight (s : State) (a n : Nat) : (s.scramble a n).store.flight = s.store.flight := rfl
@[simp] theorem State.scramble_store_reads (s : State) (a n : Nat) : (s.scramble a n).store.reads = s.store.reads := rfl
@[simp] theorem State.scramble_store_fetch (s : State) (a n : Nat) : (s.scramble a n).store.fetch = s.store.fetch := rfl
@[simp] theorem State.scramble_store_nextSeq (s : State) (a n : Nat) : (s.scramble a n).store.nextSeq = s.store.nextSeq := rfl
@[simp] theorem State.scramble_store_lastChain (s : State) (a n : Nat) : (s.scramble a n).store.lastChain = s.store.lastChain := rfl
@[simp] theorem State.scramble_store_reserved (s : State) (a n : Nat) : (s.scramble a n).store.reserved = s.store.reserved := rfl
@[simp] theorem State.scramble_store_hold (s : State) (a n : Nat) : (s.scramble a n).store.hold = s.store.hold := rfl
@[simp] theorem State.scramble_store_goneFrom (s : State) (a n : Nat) : (s.scramble a n).store.goneFrom = s.store.goneFrom := rfl
@[simp] theorem State.scramble_store_torn (s : State) (a n : Nat) : (s.scramble a n).store.torn = s.store.torn := rfl
@[simp] theorem State.scramble_store_programs (s : State) (a n : Nat) : (s.scramble a n).store.programs = s.store.programs := rfl
@[simp] theorem State.scramble_store_programFails (s : State) (a n : Nat) : (s.scramble a n).store.programFails = s.store.programFails := rfl
@[simp] theorem State.scramble_store_erases (s : State) (a n : Nat) : (s.scramble a n).store.erases = s.store.erases := rfl
@[simp] theorem State.scramble_store_eraseFails (s : State) (a n : Nat) : (s.scramble a n).store.eraseFails = s.store.eraseFails := rfl
@[simp] theorem State.scramble_node (s : State) (a n : Nat) (a' : Nat) : (s.scramble a n).node a' = s.node a' := rfl
@[simp] theorem State.scramble_zone (s : State) (a n : Nat) (z' : Nat) : (s.scramble a n).zone z' = s.zone z' := rfl
@[simp] theorem State.scramble_lot (s : State) (a n : Nat) (e' : Nat) : (s.scramble a n).lot e' = s.lot e' := rfl
@[simp] theorem State.scramble_zoneList (s : State) (a n : Nat) (z' : Nat) : (s.scramble a n).zoneList z' = s.zoneList z' := rfl
@[simp] theorem State.scramble_profile (s : State) (a n : Nat) (p' : Nat) : (s.scramble a n).profile p' = s.profile p' := rfl
@[simp] theorem State.scramble_token (s : State) (a n : Nat) (k' : Nat) : (s.scramble a n).token k' = s.token k' := rfl
@[simp] theorem State.scramble_scannerRecord (s : State) (a n : Nat) (a' : Nat) : (s.scramble a n).scannerRecord a' = s.scannerRecord a' := rfl

/-! ## Reads after updates -/

theorem State.node_setNode (s : State) (a b : Nat) (n : Node) :
    (s.setNode a n).node b = if a = b ∧ 1 ≤ a ∧ a ≤ 31 then n else s.node b := rowGet_rowPut _ _ _ _ _

theorem State.zone_setZone (s : State) (a b : Nat) (r : Zone) :
    (s.setZone a r).zone b = if a = b ∧ 1 ≤ a ∧ a ≤ 8 then r else s.zone b := rowGet_rowPut _ _ _ _ _

theorem State.lot_setLot (s : State) (a b : Nat) (l : Lot) :
    (s.setLot a l).lot b = if a = b ∧ a < 64 then l else s.lot b := tabGet_tabPut _ _ _ _ _

theorem State.zoneList_setZoneList (s : State) (a b : Nat) (l : List Nat) :
    (s.setZoneList a l).zoneList b = if a = b ∧ 1 ≤ a ∧ a ≤ 8 then l else s.zoneList b := rowGet_rowPut _ _ _ _ _

theorem State.token_setToken (s : State) (a b : Nat) (u : Option TokenUse) :
    (s.setToken a u).token b = if a = b ∧ a < 4 then u else s.token b := tabGet_tabPut _ _ _ _ _

@[simp] theorem State.node_setNode_same (s : State) (a : Nat) (n : Node) (h1 : 1 ≤ a) (h2 : a ≤ 31) :
    (s.setNode a n).node a = n := by simp [State.node_setNode, h1, h2]

@[simp] theorem State.node_setNode_other (s : State) (a b : Nat) (n : Node) (h : a ≠ b) :
    (s.setNode a n).node b = s.node b := by simp [State.node_setNode, h]

@[simp] theorem State.zone_setZone_same (s : State) (z : Nat) (r : Zone) (h1 : 1 ≤ z) (h2 : z ≤ 8) :
    (s.setZone z r).zone z = r := by simp [State.zone_setZone, h1, h2]

@[simp] theorem State.zone_setZone_other (s : State) (a b : Nat) (r : Zone) (h : a ≠ b) :
    (s.setZone a r).zone b = s.zone b := by simp [State.zone_setZone, h]

@[simp] theorem State.lot_setLot_same (s : State) (e : Nat) (l : Lot) (h : e < 64) : (s.setLot e l).lot e = l := by
  simp [State.lot_setLot, h]

@[simp] theorem State.lot_setLot_other (s : State) (a b : Nat) (l : Lot) (h : a ≠ b) : (s.setLot a l).lot b = s.lot b := by
  simp [State.lot_setLot, h]

@[simp] theorem State.token_setToken_same (s : State) (k : Nat) (u : Option TokenUse) (h : k < 4) :
    (s.setToken k u).token k = u := by simp [State.token_setToken, h]

@[simp] theorem State.token_setToken_other (s : State) (a b : Nat) (u : Option TokenUse) (h : a ≠ b) :
    (s.setToken a u).token b = s.token b := by simp [State.token_setToken, h]

theorem State.node_modScanner (s : State) (a b : Nat) (f : ScannerRecord → ScannerRecord) :
    (s.modScanner a f).node b =
      if a = b ∧ 1 ≤ a ∧ a ≤ 31 then { s.node a with scanner := (s.node a).scanner.map f } else s.node b :=
  State.node_setNode _ _ _ _

/-- A command's effect is taken while VDD is present. -/
@[simp] theorem whenOn_on (s : State) (f : State → State) (h : s.time.vdd = true) : whenOn s f = .next (f s) := by
  simp [whenOn, h]

/-- During a dip no event is taken. -/
@[simp] theorem whenOn_off (s : State) (f : State → State) (h : s.time.vdd = false) : whenOn s f = .next s := by
  simp [whenOn, h]

theorem step_cons (s : State) (c : Instr) (rest : List Instr) (h : s.pending = c :: rest) :
    step s = exec c (s.withPending rest) := by simp [step, h]

end Sys2Proof.Machine
end

