-- ==== Sys2Proof/Laws/Ops.lean ====
section
/-! SUPPORT. What the shared operations on the outbound queue, the transmitter, the field line and the mode can do. -/

namespace Sys2Proof.Machine

/-! ## The outbound queue and its transmitter -/

/-- Offering an entry changes only the queue and the drop and eviction counts. -/
theorem Trunk.join_frame (t : Trunk) (e : Entry) :
    t.join e = { t with
      queue := (t.join e).queue, evictions := (t.join e).evictions, recordDrops := (t.join e).recordDrops
      urgentDrops := (t.join e).urgentDrops, bulkDrops := (t.join e).bulkDrops } := by
  simp only [Trunk.join]
  split
  · rfl
  · split
    · split <;> rfl
    · rfl

/-- The transmitter changes only the queue and what is being sent. -/
theorem Trunk.transmit_frame (t : Trunk) :
    t.transmit = { t with queue := t.transmit.queue, sending := t.transmit.sending } := by
  simp only [Trunk.transmit]
  split
  · split <;> rfl
  · rfl

@[simp] theorem Trunk.join_settings (t : Trunk) (e : Entry) : (t.join e).settings = t.settings := by rw [join_frame]
@[simp] theorem Trunk.join_unsynced (t : Trunk) (e : Entry) : (t.join e).unsynced = t.unsynced := by rw [join_frame]
@[simp] theorem Trunk.join_sending (t : Trunk) (e : Entry) : (t.join e).sending = t.sending := by rw [join_frame]
@[simp] theorem Trunk.join_pause (t : Trunk) (e : Entry) : (t.join e).pause = t.pause := by rw [join_frame]
@[simp] theorem Trunk.join_inboundDrops (t : Trunk) (e : Entry) : (t.join e).inboundDrops = t.inboundDrops := by
  rw [join_frame]
@[simp] theorem Trunk.join_badKinds (t : Trunk) (e : Entry) : (t.join e).badKinds = t.badKinds := by rw [join_frame]
@[simp] theorem Trunk.join_badLengths (t : Trunk) (e : Entry) : (t.join e).badLengths = t.badLengths := by rw [join_frame]
@[simp] theorem Trunk.join_receiving (t : Trunk) (e : Entry) : (t.join e).receiving = t.receiving := by rw [join_frame]

@[simp] theorem Trunk.transmit_receiving (t : Trunk) : t.transmit.receiving = t.receiving := by rw [transmit_frame]
@[simp] theorem Trunk.transmit_settings (t : Trunk) : t.transmit.settings = t.settings := by rw [transmit_frame]
@[simp] theorem Trunk.transmit_unsynced (t : Trunk) : t.transmit.unsynced = t.unsynced := by rw [transmit_frame]
@[simp] theorem Trunk.transmit_pause (t : Trunk) : t.transmit.pause = t.pause := by rw [transmit_frame]
@[simp] theorem Trunk.transmit_inboundDrops (t : Trunk) : t.transmit.inboundDrops = t.inboundDrops := by
  rw [transmit_frame]
@[simp] theorem Trunk.transmit_badKinds (t : Trunk) : t.transmit.badKinds = t.badKinds := by rw [transmit_frame]
@[simp] theorem Trunk.transmit_badLengths (t : Trunk) : t.transmit.badLengths = t.badLengths := by rw [transmit_frame]
@[simp] theorem Trunk.transmit_bulkDrops (t : Trunk) : t.transmit.bulkDrops = t.bulkDrops := by rw [transmit_frame]
@[simp] theorem Trunk.transmit_urgentDrops (t : Trunk) : t.transmit.urgentDrops = t.urgentDrops := by rw [transmit_frame]
@[simp] theorem Trunk.transmit_evictions (t : Trunk) : t.transmit.evictions = t.evictions := by rw [transmit_frame]
@[simp] theorem Trunk.transmit_recordDrops (t : Trunk) : t.transmit.recordDrops = t.recordDrops := by rw [transmit_frame]

@[simp] theorem State.offer_settings (s : State) (e : Entry) : (s.offer e).trunk.settings = s.trunk.settings := by
  simp [State.offer]
@[simp] theorem State.offer_unsynced (s : State) (e : Entry) : (s.offer e).trunk.unsynced = s.trunk.unsynced := by
  simp [State.offer]
@[simp] theorem State.offer_pause (s : State) (e : Entry) : (s.offer e).trunk.pause = s.trunk.pause := by
  simp [State.offer]
@[simp] theorem State.answer_settings (s : State) (tag kind : Byte) (code : Code) (vals : List Val) :
    (s.answer tag kind code vals).trunk.settings = s.trunk.settings := by simp [State.answer]
@[simp] theorem State.answer_unsynced (s : State) (tag kind : Byte) (code : Code) (vals : List Val) :
    (s.answer tag kind code vals).trunk.unsynced = s.trunk.unsynced := by simp [State.answer]
@[simp] theorem State.answer_pause (s : State) (tag kind : Byte) (code : Code) (vals : List Val) :
    (s.answer tag kind code vals).trunk.pause = s.trunk.pause := by simp [State.answer]

@[simp] theorem placesOf_append (p q : List Entry) : placesOf (p ++ q) = placesOf p + placesOf q := by
  simp [placesOf]

@[simp] theorem placesOf_cons (e : Entry) (q : List Entry) : placesOf (e :: q) = e.places + placesOf q := by
  simp [placesOf]

@[simp] theorem placesOf_nil : placesOf [] = 0 := rfl

@[simp] theorem bulkPlaces_cons (e : Entry) (q : List Entry) :
    bulkPlaces (e :: q) = (if e.urgent then 0 else e.places) + bulkPlaces q := by
  unfold bulkPlaces
  cases h : e.urgent <;> simp [h]

theorem bulkPlaces_le (q : List Entry) : bulkPlaces q ≤ placesOf q := by
  induction q with
  | nil => simp [bulkPlaces]
  | cons e q ih =>
    simp only [bulkPlaces_cons, placesOf_cons]
    split <;> omega

/-- Eviction takes bulk entries only, the oldest first, and as few as make the room (R178). -/
theorem evictBulk_spec (need room : Nat) (q : List Entry) :
    (evictBulk need room q).1.Sublist q
      ∧ (evictBulk need room q).1.filter Entry.urgent = q.filter Entry.urgent
      ∧ placesOf (evictBulk need room q).1 ≤ placesOf q
      ∧ (need ≤ room + bulkPlaces q → need + placesOf (evictBulk need room q).1 ≤ room + placesOf q) := by
  induction q generalizing room with
  | nil => simp [evictBulk, bulkPlaces]
  | cons e q ih =>
    simp only [evictBulk]
    split
    · rename_i h
      exact ⟨List.Sublist.refl _, rfl, Nat.le_refl _, fun _ => Nat.add_le_add_right (by assumption) _⟩
    · split
      · rename_i h hu
        obtain ⟨h1, h2, h3, h4⟩ := ih room
        refine ⟨h1.cons_cons e, by simp [hu, h2], by simp [h3], ?_⟩
        intro hn
        simp only [bulkPlaces_cons, hu, if_true, placesOf_cons] at hn ⊢
        have := h4 (by omega)
        omega
      · rename_i h hu
        obtain ⟨h1, h2, h3, h4⟩ := ih (room + e.places)
        refine ⟨h1.cons e, by simp [hu, h2], by simp only [placesOf_cons]; omega, ?_⟩
        intro hn
        simp only [bulkPlaces_cons, hu, placesOf_cons] at hn ⊢
        have := h4 (by simpa [Nat.add_assoc] using hn)
        omega

/-- The queue never takes more than 24 places (R177). -/
theorem Trunk.join_places (t : Trunk) (e : Entry) (h : placesOf t.queue ≤ 24) : placesOf (t.join e).queue ≤ 24 := by
  by_cases h1 : e.places ≤ 24 - placesOf t.queue
  · simp only [Trunk.join, queuePlaces, h1, if_true, placesOf_append, placesOf_cons, placesOf_nil]; omega
  · by_cases hu : e.urgent = true
    · by_cases h2 : e.places ≤ 24 - placesOf t.queue + bulkPlaces t.queue
      · have := (evictBulk_spec e.places (24 - placesOf t.queue) t.queue).2.2.2 h2
        simp only [Trunk.join, queuePlaces, h1, hu, h2, if_true, if_false, placesOf_append, placesOf_cons, placesOf_nil]
        omega
      · simpa [Trunk.join, queuePlaces, h1, hu, h2] using h
    · simpa [Trunk.join, queuePlaces, h1, hu] using h

theorem takeFirst_places (p : Entry → Bool) (q : List Entry) (e : Entry) (r : List Entry) (h : takeFirst p q = some (e, r)) :
    e.places + placesOf r = placesOf q := by
  induction q generalizing e r with
  | nil => simp [takeFirst] at h
  | cons x xs ih =>
    simp only [takeFirst] at h
    split at h
    · cases h; simp
    · cases hx : takeFirst p xs with
      | none => simp [hx] at h
      | some v =>
        obtain ⟨e', r'⟩ := v
        simp only [hx, Option.map_some, Option.some.injEq, Prod.mk.injEq] at h
        obtain ⟨rfl, rfl⟩ := h
        have := ih e' r' hx
        simp only [placesOf_cons]; omega

theorem Trunk.choice_places (t : Trunk) (e : Entry) (q : List Entry) (h : t.choice = some (e, q)) :
    e.places + placesOf q = placesOf t.queue := by
  unfold Trunk.choice at h
  split at h
  · exact takeFirst_places _ _ _ _ h
  · split at h
    · rename_i r hr
      cases h
      exact takeFirst_places _ _ _ _ hr
    · exact takeFirst_places _ _ _ _ h

theorem Trunk.transmit_places (t : Trunk) (h : placesOf t.queue ≤ 24) : placesOf t.transmit.queue ≤ 24 := by
  unfold Trunk.transmit
  split
  · split
    · rename_i e q hq
      have := t.choice_places e q hq
      simp only; omega
    · exact h
  · exact h

theorem State.offer_places (s : State) (e : Entry) (h : placesOf s.trunk.queue ≤ 24) :
    placesOf (s.offer e).trunk.queue ≤ 24 := Trunk.transmit_places _ (Trunk.join_places _ _ h)

/-! ## The field line -/

/-- What the arbiter's grant leaves of a node. -/
def Node.sameBut (n m : Node) : Prop :=
  m.entry = n.entry ∧ m.liveness = n.liveness ∧ m.miss = n.miss ∧ m.box = n.box ∧ m.scanner = n.scanner

theorem Node.sameBut_refl (n : Node) : n.sameBut n := ⟨rfl, rfl, rfl, rfl, rfl⟩

theorem Node.sameBut_trans {a b c : Node} (h : a.sameBut b) (k : b.sameBut c) : a.sameBut c :=
  ⟨k.1.trans h.1, k.2.1.trans h.2.1, k.2.2.1.trans h.2.2.1, k.2.2.2.1.trans h.2.2.2.1, k.2.2.2.2.trans h.2.2.2.2⟩

/-- A grant changes the line, the pending answers, the discarded count, and the outstanding mark of a discarded answer's
node. -/
theorem Coord.grantOver_frame (l : List (Nat × ScanReply)) (c : Coord) :
    (Coord.grantOver l c) = { c with
        nodes := (Coord.grantOver l c).nodes, line := (Coord.grantOver l c).line
        answers := (Coord.grantOver l c).answers, discarded := (Coord.grantOver l c).discarded }
      ∧ ∀ a, (rowGet c.nodes a Node.blank).sameBut (rowGet (Coord.grantOver l c).nodes a Node.blank) := by
  induction l generalizing c with
  | nil =>
    simp only [Coord.grantOver, Coord.openPoll]
    split <;> exact ⟨rfl, fun a => Node.sameBut_refl _⟩
  | cons p rest ih =>
    obtain ⟨a, r⟩ := p
    simp only [Coord.grantOver]
    split
    · obtain ⟨h1, h2⟩ := ih { c with
        discarded := bump16 c.discarded
        nodes := rowPut c.nodes a { rowGet c.nodes a Node.blank with outstanding := .clear } }
      refine ⟨h1, fun b => Node.sameBut_trans ?_ (h2 b)⟩
      simp only [rowGet_rowPut]
      split
      · rename_i h
        rw [← h.1]
        exact ⟨rfl, rfl, rfl, rfl, rfl⟩
      · exact Node.sameBut_refl _
    · exact ⟨rfl, fun _ => Node.sameBut_refl _⟩

theorem Coord.grant_frame (c : Coord) :
    c.grant = { c with nodes := c.grant.nodes, line := c.grant.line, answers := c.grant.answers, discarded := c.grant.discarded }
      ∧ ∀ a, (rowGet c.nodes a Node.blank).sameBut (rowGet c.grant.nodes a Node.blank) := by
  unfold Coord.grant
  split
  · exact Coord.grantOver_frame _ _
  · exact ⟨rfl, fun _ => Node.sameBut_refl _⟩

theorem Coord.grant_phase (c : Coord) : c.grant.phase = c.phase := by
  have h := congrArg Coord.phase c.grant_frame.1
  exact h

theorem State.grantLine_node (s : State) (a : Nat) : (s.node a).sameBut (s.grantLine.node a) := s.coord.grant_frame.2 a

/-- A discarded count or pending answer list that a grant meets: an answer for a scanner that is not SILENT is sent or
goes on waiting (R18). -/
theorem Coord.grantOver_keeps (l : List (Nat × ScanReply)) (c : Coord) (a : Nat) (r : ScanReply) (h : (a, r) ∈ l)
    (hl : (rowGet c.nodes a Node.blank).liveness ≠ .silent) :
    (Coord.grantOver l c).line = .sending a r ∨ (a, r) ∈ (Coord.grantOver l c).answers := by
  induction l generalizing c with
  | nil => simp at h
  | cons p rest ih =>
    obtain ⟨b, q⟩ := p
    simp only [Coord.grantOver]
    split
    · rename_i hb
      rcases List.mem_cons.mp h with h1 | h1
      · cases h1
        exact absurd hb hl
      · apply ih _ h1
        simp only [rowGet_rowPut]
        split
        · rename_i hh
          rw [hh.1]
          exact hl
        · exact hl
    · rcases List.mem_cons.mp h with h1 | h1
      · cases h1
        exact Or.inl rfl
      · exact Or.inr h1

/-! ## The mode -/

/-- A mode decision changes the mode, its count, the sweep timer and the owed mark. -/
theorem State.decideMode_frame (s : State) :
    s.decideMode = { s with
      time := { s.time with mode := s.modeNow, modeChanges := s.decideMode.time.modeChanges }
      coord := { s.coord with owed := s.decideMode.coord.owed, timer := s.decideMode.coord.timer } } := by
  simp only [State.decideMode]
  split
  · rename_i h
    rw [h]
  · simp only [State.tellMode]
    split
    · rfl
    · split <;> rfl

/-- A wake request changes the wake-until time and the last wake, and what a mode decision changes. -/
theorem State.wake_frame (s : State) (w : WakeSource) :
    s.wake w = { s with
      time := { s.time with
        wakeUntil := (s.wake w).time.wakeUntil, lastWake := (s.wake w).time.lastWake, mode := (s.wake w).time.mode
        modeChanges := (s.wake w).time.modeChanges }
      coord := { s.coord with owed := (s.wake w).coord.owed, timer := (s.wake w).coord.timer } } := by
  simp only [State.wake]
  split
  · rw [State.decideMode_frame]
  · rfl

/-- The mode after a decision is the mode that the conditions give (R189). -/
theorem State.decideMode_mode (s : State) : s.decideMode.time.mode = s.modeNow := by rw [State.decideMode_frame]

end Sys2Proof.Machine
end

