-- ==== Sys2Proof/Laws/Zones.lean ====
section
/-! SUPPORT. What the zone conditioner, the dose queue and the walk leave of the rest of the part. -/

namespace Sys2Proof.Machine

/-- What the zone conditioner leaves of a node: all but a unit's defrost report. -/
def Node.conditioned (n m : Node) : Prop :=
  m.entry = n.entry ∧ m.liveness = n.liveness ∧ m.miss = n.miss ∧ m.scanner = n.scanner ∧ m.outstanding = n.outstanding
    ∧ (m.box = n.box ∨ ∃ b r, n.box = .unit b ∧ m.box = .unit { b with report := r })

theorem Node.conditioned_refl (n : Node) : n.conditioned n := ⟨rfl, rfl, rfl, rfl, rfl, Or.inl rfl⟩

theorem Node.conditioned_trans {a b c : Node} (h : a.conditioned b) (k : b.conditioned c) : a.conditioned c := by
  obtain ⟨h1, h2, h3, h4, h5, h6⟩ := h
  obtain ⟨k1, k2, k3, k4, k5, k6⟩ := k
  refine ⟨k1.trans h1, k2.trans h2, k3.trans h3, k4.trans h4, k5.trans h5, ?_⟩
  rcases h6 with h6 | ⟨x, r, h6, h7⟩
  · rcases k6 with k6 | ⟨y, q, k6, k7⟩
    · exact Or.inl (k6.trans h6)
    · exact Or.inr ⟨y, q, h6 ▸ k6, k7⟩
  · rcases k6 with k6 | ⟨y, q, k6, k7⟩
    · exact Or.inr ⟨x, r, h6, k6.trans h7⟩
    · refine Or.inr ⟨x, q, h6, ?_⟩
      rw [h7] at k6
      cases k6
      exact k7

/-- What the zone conditioner and the dose engine's walk never change. -/
structure ZoneFrame (s t : State) : Prop where
  pool : t.pool = s.pool
  hold : t.hold = s.hold
  store : t.store = s.store
  claims : t.claims = s.claims
  free : t.free = s.free
  pending : t.pending = s.pending
  settings : t.trunk.settings = s.trunk.settings
  unsynced : t.trunk.unsynced = s.trunk.unsynced
  pause : t.trunk.pause = s.trunk.pause
  time : t.time = { s.time with
    wakeUntil := t.time.wakeUntil, lastWake := t.time.lastWake, mode := t.time.mode, modeChanges := t.time.modeChanges }
  coord : t.coord = { s.coord with nodes := t.coord.nodes, timer := t.coord.timer, owed := t.coord.owed }
  nodes : ∀ a, (s.node a).conditioned (t.node a)
  places : placesOf s.trunk.queue ≤ 24 → placesOf t.trunk.queue ≤ 24
  items : s.dose.queue.length ≤ 16 → t.dose.queue.length ≤ 16

theorem ZoneFrame.refl (s : State) : ZoneFrame s s where
  pool := rfl
  hold := rfl
  store := rfl
  claims := rfl
  free := rfl
  pending := rfl
  settings := rfl
  unsynced := rfl
  pause := rfl
  time := rfl
  coord := rfl
  nodes := fun _ => Node.conditioned_refl _
  places := id
  items := id

theorem ZoneFrame.after {a b c : State} (k : ZoneFrame b c) (h : ZoneFrame a b) : ZoneFrame a c where
  pool := k.pool.trans h.pool
  hold := k.hold.trans h.hold
  store := k.store.trans h.store
  claims := k.claims.trans h.claims
  free := k.free.trans h.free
  pending := k.pending.trans h.pending
  settings := k.settings.trans h.settings
  unsynced := k.unsynced.trans h.unsynced
  pause := k.pause.trans h.pause
  time := by rw [k.time, h.time]
  coord := by rw [k.coord, h.coord]
  nodes := fun x => Node.conditioned_trans (h.nodes x) (k.nodes x)
  places := fun x => k.places (h.places x)
  items := fun x => k.items (h.items x)

theorem ZoneFrame.foldl {α : Type} (f : State → α → State) (h : ∀ s x, ZoneFrame s (f s x)) (l : List α) (s : State) :
    ZoneFrame s (l.foldl f s) := by
  induction l generalizing s with
  | nil => exact ZoneFrame.refl s
  | cons x xs ih => exact (ih _).after (h s x)

/-! ## The dose queue and the walk -/

/-- A change of zones, fences and the dose engine that leaves the queue within its places. -/
theorem ZoneFrame.ofDose (s : State) (zs : Vector Zone 8) (d : Dose) (fs : List Fence)
    (h : s.dose.queue.length ≤ 16 → d.queue.length ≤ 16) : ZoneFrame s { s with zones := zs, dose := d, fences := fs } :=
  { ZoneFrame.refl s with items := h }

theorem ZoneFrame.setZone (s : State) (z : Nat) (r : Zone) : ZoneFrame s (s.setZone z r) :=
  ZoneFrame.ofDose s _ _ _ id

/-- Serving a pending reading adds one item at most (R34). -/
theorem State.servePending_items (s : State) : s.servePending.dose.queue.length ≤ s.dose.queue.length + 1 := by
  simp only [State.servePending]
  split
  · omega
  · split
    · omega
    · simp [State.appendItem, State.setZone]

/-- The head item leaves the queue and the freed place is offered (R34, R49). -/
theorem ZoneFrame.retireOne (s : State) :
    ZoneFrame s (State.servePending { s with dose := { s.dose with queue := s.dose.queue.tail, cursor := none } }) := by
  have hi : s.dose.queue.length ≤ 16 →
      (State.servePending
        { s with dose := { s.dose with queue := s.dose.queue.tail, cursor := none } }).dose.queue.length ≤ 16 := by
    intro hq
    have h := State.servePending_items { s with dose := { s.dose with queue := s.dose.queue.tail, cursor := none } }
    have e : ({ s with dose := { s.dose with queue := s.dose.queue.tail, cursor := none } } : State).dose.queue.length
        = s.dose.queue.length - 1 := by simp
    rw [e] at h
    omega
  revert hi
  simp only [State.servePending]
  split
  · exact fun hi => { ZoneFrame.refl s with items := hi }
  · split
    · exact fun hi => { ZoneFrame.refl s with items := hi }
    · exact fun hi => { ZoneFrame.refl s with items := hi }

theorem ZoneFrame.cursorAt (s : State) (c : Option Nat) : ZoneFrame s { s with dose := { s.dose with cursor := c } } :=
  { ZoneFrame.refl s with items := id }

theorem ZoneFrame.retire (n : Nat) (s : State) : ZoneFrame s (Machine.retire n s) := by
  induction n generalizing s with
  | zero => exact ZoneFrame.refl s
  | succ n ih =>
    simp only [Machine.retire]
    split
    · exact ZoneFrame.retireOne s
    · split
      · exact (ih _).after (ZoneFrame.retireOne s)
      · exact ZoneFrame.after (ZoneFrame.cursorAt _ _) (ZoneFrame.retireOne s)

theorem ZoneFrame.retireHead (s : State) : ZoneFrame s s.retireHead := ZoneFrame.retire _ s

theorem ZoneFrame.setCursor (s : State) (n : Option Nat) : ZoneFrame s (s.setCursor n) := by
  unfold State.setCursor
  split
  · exact ZoneFrame.ofDose s _ _ _ id
  · exact ZoneFrame.retireHead s

theorem ZoneFrame.submitTick (s : State) (t : Tick) (h : s.dose.queue.length < 16) : ZoneFrame s (s.submitTick t) := by
  have ha : ZoneFrame s (s.appendItem t) :=
    ZoneFrame.ofDose s _ _ _ (fun _ => by simp only [List.length_append, List.length_cons, List.length_nil]; omega)
  simp only [State.submitTick]
  split
  · exact (ZoneFrame.setCursor _ _).after ha
  · exact ha

/-! ## Alarms -/

theorem ZoneFrame.offer (s : State) (e : Entry) : ZoneFrame s (s.offer e) :=
  { ZoneFrame.refl s with
    settings := State.offer_settings s e
    unsynced := State.offer_unsynced s e
    pause := State.offer_pause s e
    places := State.offer_places s e }

theorem ZoneFrame.sendAlarm (s : State) (z t : Nat) : ZoneFrame s (s.sendAlarm z t) :=
  (ZoneFrame.offer _ _).after (ZoneFrame.setZone _ _ _)

theorem ZoneFrame.decideNotice (s : State) (z t : Nat) : ZoneFrame s (s.decideNotice z t) := by
  simp only [State.decideNotice]
  repeat' split
  all_goals first | exact ZoneFrame.sendAlarm _ _ _ | exact ZoneFrame.setZone _ _ _

theorem ZoneFrame.wake (s : State) (w : WakeSource) : ZoneFrame s (s.wake w) := by
  rw [State.wake_frame]
  exact { ZoneFrame.refl s with time := rfl, coord := rfl }

theorem ZoneFrame.alarmWakes (n : Nat) (s : State) : ZoneFrame s (State.alarmWakes n s) := by
  induction n generalizing s with
  | zero => exact ZoneFrame.refl s
  | succ n ih => exact (ih _).after (ZoneFrame.wake s .alarm)

theorem ZoneFrame.setAlarms (s : State) (z t : Nat) (a : AlarmSet) : ZoneFrame s (s.setAlarms z t a) := by
  simp only [State.setAlarms]
  split
  · exact (ZoneFrame.decideNotice _ _ _).after ((ZoneFrame.alarmWakes _ _).after (ZoneFrame.setZone _ _ _))
  · exact (ZoneFrame.alarmWakes _ _).after (ZoneFrame.setZone _ _ _)

/-! ## The sweep end -/

theorem ZoneFrame.takeReport (s : State) (z : Nat) : ZoneFrame s (s.takeReport z).2 := by
  unfold State.takeReport
  split
  · rename_i a b hb
    split
    · have hbox : (s.node a).box = .unit b := by
        have : ∀ l, firstSome (fun a => match (s.node a).box with
            | .unit b => some (a, b)
            | _ => none) l = some (a, b) → (s.node a).box = .unit b := by
          intro l
          induction l with
          | nil => simp [firstSome]
          | cons x xs ih =>
            intro h
            simp only [firstSome] at h
            split at h
            · rename_i y hy
              split at hy
              · rename_i b' hb'
                cases hy
                cases h
                exact hb'
              · cases hy
            · exact ih h
        exact this _ hb
      refine { ZoneFrame.refl s with coord := rfl, nodes := ?_ }
      intro c
      rw [State.node_setNode]
      split
      · rename_i hc
        rw [← hc.1]
        exact ⟨rfl, rfl, rfl, rfl, rfl, Or.inr ⟨b, none, hbox, rfl⟩⟩
      · exact Node.conditioned_refl _
    · exact ZoneFrame.refl s
  · exact ZoneFrame.refl s

theorem ZoneFrame.tickZone (s : State) (z t : Nat) : ZoneFrame s (s.tickZone z t) := by
  simp only [State.tickZone]
  split
  · exact ZoneFrame.refl s
  · split
    · exact ZoneFrame.setZone _ _ _
    · split
      · rename_i h
        exact (ZoneFrame.submitTick (s.setZone z _) _ h).after (ZoneFrame.setZone _ _ _)
      · exact ZoneFrame.setZone _ _ _

theorem ZoneFrame.zoneSweepEnd (s : State) (z : Nat) : ZoneFrame s (s.zoneSweepEnd z) := by
  simp only [State.zoneSweepEnd]
  split
  · exact (ZoneFrame.tickZone _ _ _).after <| (ZoneFrame.setAlarms _ _ _ _).after <| (ZoneFrame.setZone _ _ _).after <|
      (ZoneFrame.setZone _ _ _).after <| ZoneFrame.takeReport s z
  · exact ZoneFrame.takeReport s z

theorem ZoneFrame.conditionZones (s : State) : ZoneFrame s s.conditionZones :=
  ZoneFrame.foldl _ ZoneFrame.zoneSweepEnd _ s

end Sys2Proof.Machine
end

