-- ==== Sys2Proof/Laws/Field.lean ====
section
/-! SUPPORT. What the end of an exchange, the end of a sweep and a sweep start leave of the rest of the part. -/

namespace Sys2Proof.Machine

/-- What a sweep end and a sweep start leave of a mailbox. -/
def Mailbox.swept : Mailbox → Mailbox → Prop
  | .none, m => m = .none
  | .probe b, m => ∃ b', m = .probe b' ∧ b'.value = b.value ∧ b'.lastSeq = b.lastSeq ∧ b'.lost = b.lost
  | .door b, m => ∃ b', m = .door b' ∧ b'.state = b.state ∧ b'.changeTime = b.changeTime
  | .unit b, m => ∃ b', m = .unit b' ∧ b'.fault = b.fault

theorem Mailbox.swept_refl (m : Mailbox) : m.swept m := by
  cases m <;> simp [Mailbox.swept]

theorem Mailbox.swept_trans {a b c : Mailbox} (h : a.swept b) (k : b.swept c) : a.swept c := by
  cases a with
  | none => cases h; exact k
  | probe x =>
    obtain ⟨y, rfl, h1, h2, h3⟩ := h
    obtain ⟨z, rfl, k1, k2, k3⟩ := k
    exact ⟨z, rfl, k1.trans h1, k2.trans h2, k3.trans h3⟩
  | door x =>
    obtain ⟨y, rfl, h1, h2⟩ := h
    obtain ⟨z, rfl, k1, k2⟩ := k
    exact ⟨z, rfl, k1.trans h1, k2.trans h2⟩
  | unit x =>
    obtain ⟨y, rfl, h1⟩ := h
    obtain ⟨z, rfl, k1⟩ := k
    exact ⟨z, rfl, k1.trans h1⟩

theorem Mailbox.swept_clearMarks (m : Mailbox) : m.swept m.clearMarks := by
  cases m <;> simp [Mailbox.swept, Mailbox.clearMarks]

/-- What a sweep end and a sweep start leave of a node. -/
def Node.swept (n m : Node) : Prop :=
  m.entry = n.entry ∧ m.liveness = n.liveness ∧ m.miss = n.miss ∧ m.scanner = n.scanner ∧ n.box.swept m.box

theorem Node.swept_refl (n : Node) : n.swept n := ⟨rfl, rfl, rfl, rfl, Mailbox.swept_refl _⟩

theorem Node.swept_trans {a b c : Node} (h : a.swept b) (k : b.swept c) : a.swept c :=
  ⟨k.1.trans h.1, k.2.1.trans h.2.1, k.2.2.1.trans h.2.2.1, k.2.2.2.1.trans h.2.2.2.1,
    Mailbox.swept_trans h.2.2.2.2 k.2.2.2.2⟩

theorem Node.swept_of_conditioned {n m : Node} (h : n.conditioned m) : n.swept m := by
  obtain ⟨h1, h2, h3, h4, _, h6⟩ := h
  refine ⟨h1, h2, h3, h4, ?_⟩
  rcases h6 with h6 | ⟨b, r, h6, h7⟩
  · rw [h6]; exact Mailbox.swept_refl _
  · rw [h6, h7]; exact ⟨_, rfl, rfl⟩

theorem Node.swept_of_sameBut {n m : Node} (h : n.sameBut m) : n.swept m := by
  obtain ⟨h1, h2, h3, h4, h5⟩ := h
  exact ⟨h1, h2, h3, h5, h4 ▸ Mailbox.swept_refl _⟩

/-- What the end of an exchange, with the sweep end and sweep start that may follow it, never changes. -/
structure SweepFrame (s t : State) : Prop where
  pool : t.pool = s.pool
  hold : t.hold = s.hold
  store : t.store = s.store
  claims : t.claims = s.claims
  free : t.free = s.free
  pending : t.pending = s.pending
  settings : t.trunk.settings = s.trunk.settings
  unsynced : t.trunk.unsynced = s.trunk.unsynced
  pause : t.trunk.pause = s.trunk.pause
  time : t.time = { s.time with
    wakeUntil := t.time.wakeUntil, lastWake := t.time.lastWake, mode := t.time.mode, modeChanges := t.time.modeChanges }
  coord : t.coord = { s.coord with
    nodes := t.coord.nodes, line := t.coord.line, answers := t.coord.answers, phase := t.coord.phase
    nextAddress := t.coord.nextAddress, lastStart := t.coord.lastStart, timer := t.coord.timer, owed := t.coord.owed
    discarded := t.coord.discarded }
  nodes : ∀ a, (s.node a).swept (t.node a)
  places : placesOf s.trunk.queue ≤ 24 → placesOf t.trunk.queue ≤ 24
  items : s.dose.queue.length ≤ 16 → t.dose.queue.length ≤ 16

theorem SweepFrame.refl (s : State) : SweepFrame s s where
  pool := rfl
  hold := rfl
  store := rfl
  claims := rfl
  free := rfl
  pending := rfl
  settings := rfl
  unsynced := rfl
  pause := rfl
  time := rfl
  coord := rfl
  nodes := fun _ => Node.swept_refl _
  places := id
  items := id

theorem SweepFrame.after {a b c : State} (k : SweepFrame b c) (h : SweepFrame a b) : SweepFrame a c where
  pool := k.pool.trans h.pool
  hold := k.hold.trans h.hold
  store := k.store.trans h.store
  claims := k.claims.trans h.claims
  free := k.free.trans h.free
  pending := k.pending.trans h.pending
  settings := k.settings.trans h.settings
  unsynced := k.unsynced.trans h.unsynced
  pause := k.pause.trans h.pause
  time := by rw [k.time, h.time]
  coord := by rw [k.coord, h.coord]
  nodes := fun x => Node.swept_trans (h.nodes x) (k.nodes x)
  places := fun x => k.places (h.places x)
  items := fun x => k.items (h.items x)

theorem SweepFrame.ofZones {s t : State} (h : ZoneFrame s t) : SweepFrame s t where
  pool := h.pool
  hold := h.hold
  store := h.store
  claims := h.claims
  free := h.free
  pending := h.pending
  settings := h.settings
  unsynced := h.unsynced
  pause := h.pause
  time := h.time
  coord := by rw [h.coord]
  nodes := fun a => Node.swept_of_conditioned (h.nodes a)
  places := h.places
  items := h.items

theorem SweepFrame.grantLine (s : State) : SweepFrame s s.grantLine :=
  { SweepFrame.refl s with
    coord := by
      have h := s.coord.grant_frame.1
      unfold State.grantLine
      dsimp only
      rw [h]
    nodes := fun a => Node.swept_of_sameBut (State.grantLine_node s a) }

/-- A change of the coordinator's line, phase, addresses, times and owed mark. -/
theorem SweepFrame.ofCoord (s : State) (line : Line) (phase : Phase) (next : Nat) (start timer : Option Nat) (owed : Bool) :
    SweepFrame s { s with coord := { s.coord with
      line := line, phase := phase, nextAddress := next, lastStart := start, timer := timer, owed := owed } } :=
  { SweepFrame.refl s with coord := rfl }

theorem SweepFrame.startSweep (s : State) : SweepFrame s s.startSweep := by
  unfold State.startSweep
  refine (SweepFrame.grantLine _).after { SweepFrame.refl s with coord := rfl, nodes := ?_ }
  intro a
  unfold State.node
  by_cases h : 1 ≤ a ∧ a ≤ 31
  · dsimp only
    rw [rowGet_tabMap _ _ _ Node.blank h.1 h.2]
    exact ⟨rfl, rfl, rfl, rfl, Mailbox.swept_clearMarks _⟩
  · have e : ∀ v : Vector Node 31, rowGet v a Node.blank = Node.blank := by
      intro v
      unfold rowGet
      split
      · rfl
      · exact tabGet_outside _ _ _ (by omega)
    rw [e, e]
    exact Node.swept_refl _

theorem SweepFrame.expireAfter (m : Mode) (s : State) : SweepFrame s (State.expireAfter m s) := by
  unfold State.expireAfter
  split
  · split
    · exact SweepFrame.startSweep s
    · exact SweepFrame.refl s
  · exact SweepFrame.refl s

theorem SweepFrame.clearOwed (s : State) : SweepFrame s { s with coord := { s.coord with owed := false } } :=
  { SweepFrame.refl s with coord := rfl }

theorem SweepFrame.endSweep (s : State) : SweepFrame s s.endSweep := by
  have h1 : SweepFrame s { s with coord := { s.coord with phase := .idle } } := { SweepFrame.refl s with coord := rfl }
  have h2 := (SweepFrame.ofZones (ZoneFrame.conditionZones { s with coord := { s.coord with phase := .idle } })).after h1
  simp only [State.endSweep]
  split
  · exact (SweepFrame.startSweep _).after ((SweepFrame.clearOwed _).after h2)
  · exact (SweepFrame.grantLine _).after ((SweepFrame.expireAfter _ _).after h2)

theorem SweepFrame.endExchange (s : State) (a : Nat) : SweepFrame s (s.endExchange a) := by
  simp only [State.endExchange]
  split
  · exact (SweepFrame.endSweep _).after { SweepFrame.refl s with coord := rfl }
  · exact (SweepFrame.grantLine _).after { SweepFrame.refl s with coord := rfl }

/-- A sweep end after which no sweep runs leaves the mailboxes as the zone conditioner left them. -/
theorem State.startSweep_phase (s : State) : s.startSweep.coord.phase = .sweeping := by
  unfold State.startSweep State.grantLine
  exact Coord.grant_phase _

theorem State.expireAfter_cases (m : Mode) (s : State) :
    State.expireAfter m s = s.startSweep ∨ State.expireAfter m s = s := by
  unfold State.expireAfter
  split
  · split
    · exact Or.inl rfl
    · exact Or.inr rfl
  · exact Or.inr rfl

theorem State.expireAfter_idle (m : Mode) (s : State) (h : (State.expireAfter m s).coord.phase = .idle) :
    State.expireAfter m s = s := by
  rcases State.expireAfter_cases m s with e | e
  · rw [e, State.startSweep_phase] at h
    cases h
  · exact e

theorem State.endSweep_idle (s : State) (h : s.endSweep.coord.phase = .idle) (a : Nat) :
    ∃ n, (s.node a).conditioned n ∧ n.sameBut (s.endSweep.node a) := by
  have hz := (ZoneFrame.conditionZones { s with coord := { s.coord with phase := .idle } }).nodes a
  revert h
  simp only [State.endSweep]
  generalize State.conditionZones { s with coord := { s.coord with phase := .idle } } = u at hz ⊢
  split
  · intro h
    rw [State.startSweep_phase] at h
    cases h
  · intro h
    refine ⟨_, hz, ?_⟩
    have h' := (Coord.grant_phase (State.expireAfter s.time.mode u).coord).symm.trans h
    rw [State.expireAfter_idle _ _ h']
    exact State.grantLine_node _ _

/-- The end of an exchange before address 31: only the line, the answers and the next address move (R4, R18). -/
theorem State.endExchange_before (s : State) (a : Nat) (h : a < 31) :
    s.endExchange a = { s with coord := (s.endExchange a).coord }
      ∧ (s.endExchange a).coord = { s.coord with
          nodes := (s.endExchange a).coord.nodes, line := (s.endExchange a).coord.line
          answers := (s.endExchange a).coord.answers, discarded := (s.endExchange a).coord.discarded
          nextAddress := a + 1 }
      ∧ (s.coord.answers = [] →
          (s.endExchange a).coord.line = if s.coord.phase = .sweeping then .poll (a + 1) else .free)
      ∧ ∀ b, (s.node b).sameBut ((s.endExchange a).node b) := by
  have hn : ¬ 31 ≤ a := by omega
  simp only [State.endExchange, hn, if_false]
  refine ⟨rfl, ?_, ?_, fun b => State.grantLine_node _ b⟩
  · exact (Coord.grant_frame { s.coord with line := .free, nextAddress := a + 1 }).1
  · intro ha
    unfold State.grantLine Coord.grant
    simp only [ha, Coord.grantOver, Coord.openPoll]
    split <;> rename_i hp <;> simp_all

end Sys2Proof.Machine
end

