-- ==== Sys2Proof/Laws/Store.lean ====
section
/-! SUPPORT. What the store controller's shared operations (admission, reservation, going out, settling, the array
arbiter) leave of the rest of the part. One frame says it for all of them. -/

namespace Sys2Proof.Machine

/-- What no shared operation of the store controller changes: zones, fences, pool, hold, time, the array's bytes, the
claims, the settings, the dose queue and its walk, and of the coordinator all but the field line, the scanner answers
and the scanner records. -/
structure StoreFrame (s t : State) : Prop where
  zones : t.zones = s.zones
  dose : t.dose = { s.dose with retry := t.dose.retry }
  fences : t.fences = s.fences
  pool : t.pool = s.pool
  hold : t.hold = s.hold
  time : t.time = s.time
  free : t.free = s.free
  pending : t.pending = s.pending
  mem : t.store.mem = s.store.mem
  claims : t.claims = { s.claims with raise := t.claims.raise }
  settings : t.trunk.settings = s.trunk.settings
  unsynced : t.trunk.unsynced = s.trunk.unsynced
  pause : t.trunk.pause = s.trunk.pause
  coord : t.coord = { s.coord with
    nodes := t.coord.nodes, line := t.coord.line, answers := t.coord.answers, discarded := t.coord.discarded }
  nodes : ∀ a, (t.node a).entry = (s.node a).entry ∧ (t.node a).liveness = (s.node a).liveness
    ∧ (t.node a).miss = (s.node a).miss ∧ (t.node a).box = (s.node a).box
  places : placesOf s.trunk.queue ≤ 24 → placesOf t.trunk.queue ≤ 24

theorem StoreFrame.refl (s : State) : StoreFrame s s where
  zones := rfl
  dose := rfl
  fences := rfl
  pool := rfl
  hold := rfl
  time := rfl
  free := rfl
  pending := rfl
  mem := rfl
  claims := rfl
  settings := rfl
  unsynced := rfl
  pause := rfl
  coord := rfl
  nodes := fun _ => ⟨rfl, rfl, rfl, rfl⟩
  places := id

theorem StoreFrame.trans {a b c : State} (h : StoreFrame a b) (k : StoreFrame b c) : StoreFrame a c where
  zones := k.zones.trans h.zones
  dose := by rw [k.dose, h.dose]
  fences := k.fences.trans h.fences
  pool := k.pool.trans h.pool
  hold := k.hold.trans h.hold
  time := k.time.trans h.time
  free := k.free.trans h.free
  pending := k.pending.trans h.pending
  mem := k.mem.trans h.mem
  claims := by rw [k.claims, h.claims]
  settings := k.settings.trans h.settings
  unsynced := k.unsynced.trans h.unsynced
  pause := k.pause.trans h.pause
  coord := by rw [k.coord, h.coord]
  nodes := fun x => ⟨(k.nodes x).1.trans (h.nodes x).1, (k.nodes x).2.1.trans (h.nodes x).2.1,
    (k.nodes x).2.2.1.trans (h.nodes x).2.2.1, (k.nodes x).2.2.2.trans (h.nodes x).2.2.2⟩
  places := fun x => k.places (h.places x)

theorem StoreFrame.after {a b c : State} (k : StoreFrame b c) (h : StoreFrame a b) : StoreFrame a c := h.trans k

/-! ## The small operations -/

/-- A change of the store controller that leaves the array's bytes. -/
theorem StoreFrame.ofStore (s : State) (st : Store) (h : st.mem = s.store.mem) : StoreFrame s { s with store := st } :=
  { StoreFrame.refl s with mem := h }

/-- An entry offered to the outbound queue. -/
theorem StoreFrame.offer (s : State) (e : Entry) : StoreFrame s (s.offer e) :=
  { StoreFrame.refl s with
    settings := State.offer_settings s e
    unsynced := State.offer_unsynced s e
    pause := State.offer_pause s e
    places := State.offer_places s e }

theorem StoreFrame.answer (s : State) (tag kind : Byte) (code : Code) (vals : List Val) :
    StoreFrame s (s.answer tag kind code vals) := StoreFrame.offer s _

theorem StoreFrame.tellDose (s : State) : StoreFrame s s.tellDose := by
  unfold State.tellDose
  split
  · exact { StoreFrame.refl s with dose := rfl }
  · exact StoreFrame.refl s

theorem StoreFrame.setNode (s : State) (a : Nat) (n : Node) (h : n.entry = (s.node a).entry)
    (h2 : n.liveness = (s.node a).liveness) (h3 : n.miss = (s.node a).miss) (h4 : n.box = (s.node a).box) :
    StoreFrame s (s.setNode a n) :=
  { StoreFrame.refl s with
    coord := rfl
    nodes := fun b => by
      rw [State.node_setNode]
      split
      · rename_i hb
        rw [← hb.1]
        exact ⟨h, h2, h3, h4⟩
      · exact ⟨rfl, rfl, rfl, rfl⟩ }

theorem StoreFrame.modScanner (s : State) (a : Nat) (f : ScannerRecord → ScannerRecord) : StoreFrame s (s.modScanner a f) :=
  StoreFrame.setNode s a _ rfl rfl rfl rfl

theorem StoreFrame.grantLine (s : State) : StoreFrame s s.grantLine :=
  { StoreFrame.refl s with
    coord := s.coord.grant_frame.1
    nodes := fun b => by
      have h := State.grantLine_node s b
      exact ⟨h.1, h.2.1, h.2.2.1, h.2.2.2.1⟩ }

theorem StoreFrame.answerScanner (s : State) (a : Nat) (r : ScanReply) : StoreFrame s (s.answerScanner a r) := by
  unfold State.answerScanner
  split
  · refine (StoreFrame.grantLine _).after (StoreFrame.after (StoreFrame.setNode _ _ _ ?_ ?_ ?_ ?_) ?_) <;> try rfl
    exact { StoreFrame.refl s with coord := rfl }
  · exact { StoreFrame.refl s with coord := rfl }

theorem StoreFrame.reportRecord (s : State) (stored : Bool) (seq : Nat) : StoreFrame s (s.reportRecord stored seq) := by
  unfold State.reportRecord
  split
  · exact StoreFrame.refl s
  · exact StoreFrame.trans (StoreFrame.modScanner _ _ _) (StoreFrame.answerScanner _ _ _)

theorem StoreFrame.goOut (s : State) (r : Record) : StoreFrame s (s.goOut r) :=
  StoreFrame.trans (StoreFrame.offer _ _) (StoreFrame.reportRecord _ _ _)

/-- A fold of an operation that has the frame has it too. -/
theorem StoreFrame.foldl {α : Type} (f : State → α → State) (h : ∀ s x, StoreFrame s (f s x)) (l : List α) (s : State) :
    StoreFrame s (l.foldl f s) := by
  induction l generalizing s with
  | nil => exact StoreFrame.refl s
  | cons x xs ih => exact StoreFrame.trans (h s x) (ih _)

theorem StoreFrame.pin (s : State) (seq origin : Nat) : StoreFrame s (s.pin seq origin) := StoreFrame.ofStore _ _ rfl

theorem StoreFrame.unpin (s : State) (seq : Nat) : StoreFrame s (s.unpin seq) := by
  simp only [State.unpin]
  split
  · exact (StoreFrame.tellDose _).after (StoreFrame.ofStore _ _ rfl)
  · exact StoreFrame.ofStore _ _ rfl

/-! ## Reads, going out -/

theorem StoreFrame.readNotFound (s : State) (r : ReadReq) : StoreFrame s (s.readNotFound r) := by
  unfold State.readNotFound
  split
  · exact (StoreFrame.answer _ _ _ _ _).after (StoreFrame.ofStore _ _ rfl)
  · exact (StoreFrame.answer _ _ _ _ _).after { StoreFrame.refl s with claims := rfl }
  · exact StoreFrame.refl s

theorem StoreFrame.grantReads (l : List ReadReq) (s : State) : StoreFrame s (grantReads l s) := by
  induction l generalizing s with
  | nil => exact StoreFrame.ofStore _ _ rfl
  | cons r rs ih =>
    unfold Machine.grantReads
    split
    · exact StoreFrame.ofStore _ _ rfl
    · exact StoreFrame.trans (StoreFrame.readNotFound _ _) (ih _)

theorem StoreFrame.enterDegraded (s : State) : StoreFrame s s.enterDegraded := by
  simp only [State.enterDegraded]
  split
  · exact StoreFrame.refl s
  · split
    · exact (StoreFrame.tellDose _).after ((StoreFrame.foldl _ StoreFrame.goOut _ _).after (StoreFrame.ofStore _ _ rfl))
    · exact (StoreFrame.grantReads _ _).after <| (StoreFrame.tellDose _).after <|
        (StoreFrame.foldl _ StoreFrame.goOut _ _).after (StoreFrame.ofStore _ _ rfl)

/-! ## Pages and the ring leave the array's bytes -/

@[simp] theorem Store.setBlock_mem (st : Store) (b : Nat) (x : Block) : (st.setBlock b x).mem = st.mem := rfl

@[simp] theorem Store.noteFirst_mem (st : Store) (p : Nat) (l : List Record) : (st.noteFirst p l).mem = st.mem := by
  simp only [Store.noteFirst]
  split <;> rfl

theorem Store.nextTarget_mem (st st' : Store) (h : st.nextTarget = some st') : st'.mem = st.mem := by
  simp only [Store.nextTarget] at h
  split at h
  · cases h; rfl
  · split at h
    · cases h
    · cases h
      simp only [Store.setBlock_mem]
      split <;> rfl

/-- Giving a target changes the bytes of the array as little as writing it into the buffer does (R129). -/
theorem Store.giveTarget_mem (st : Store) (records : List Record) (put : Nat → Store → Store)
    (hput : ∀ n t, (put n t).mem = t.mem) : (st.giveTarget records put).2.mem = st.mem := by
  unfold Store.giveTarget
  split
  · rename_i t ht
    simp [hput, Store.nextTarget_mem st t ht]
  · rfl

@[simp] theorem Store.retargetProgram_mem (st : Store) : st.retargetProgram.2.mem = st.mem := by
  unfold Store.retargetProgram
  split
  · exact Store.giveTarget_mem _ _ _ fun _ _ => rfl
  · rfl

@[simp] theorem Store.retargetClosed_mem (st : Store) : st.retargetClosed.2.mem = st.mem := by
  unfold Store.retargetClosed
  split
  · exact Store.giveTarget_mem _ _ _ fun _ _ => rfl
  · rfl

@[simp] theorem Store.retargetFill_mem (st : Store) : st.retargetFill.2.mem = st.mem := by
  unfold Store.retargetFill
  split
  · exact Store.giveTarget_mem _ _ _ fun _ _ => rfl
  · rfl

@[simp] theorem Store.rewind_mem (st : Store) (base : Nat) : (st.rewind base).mem = st.mem := by
  simp only [Store.rewind]
  split <;> rfl

/-- Moving the targets of the buffers leaves the bytes of the array (R129). -/
@[simp] theorem Store.retarget_mem (st : Store) (base : Nat) : (st.retarget base).2.mem = st.mem := by
  simp only [Store.retarget]
  split
  · split <;> simp
  · rfl

theorem StoreFrame.openFill (s : State) : StoreFrame s s.openFill := by
  unfold State.openFill
  split
  · rename_i st h
    have hm := Store.nextTarget_mem _ _ h
    exact StoreFrame.ofStore _ _ hm
  · exact StoreFrame.enterDegraded s

theorem StoreFrame.startProgramPage (s : State) (p : PageBuf) : StoreFrame s (s.startProgramPage p) :=
  (StoreFrame.openFill _).after (StoreFrame.ofStore _ _ rfl)

theorem StoreFrame.closeFill (s : State) (f : FillPage) : StoreFrame s (s.closeFill f) := by
  simp only [State.closeFill]
  split
  · exact (StoreFrame.startProgramPage _ _).after (StoreFrame.ofStore _ _ rfl)
  · exact StoreFrame.ofStore _ _ rfl

theorem StoreFrame.moveRecord (s : State) (f : FillPage) (r : Record) (rest : List Record) :
    StoreFrame s (s.moveRecord f r rest) :=
  (StoreFrame.tellDose _).after (StoreFrame.ofStore _ _ (by simp))

theorem StoreFrame.pumpStep (flush : Bool) (s : State) : StoreFrame s (s.pumpStep flush) := by
  unfold State.pumpStep
  split
  · split
    · split
      · exact StoreFrame.startProgramPage _ _
      · exact StoreFrame.refl s
    · exact StoreFrame.refl s
  · split
    · exact StoreFrame.closeFill _ _
    · split
      · split
        · exact StoreFrame.moveRecord _ _ _ _
        · exact StoreFrame.refl s
      · exact StoreFrame.refl s

theorem StoreFrame.pumpSteps (flush : Bool) (n : Nat) (s : State) : StoreFrame s (pumpSteps flush n s) := by
  induction n generalizing s with
  | zero => exact StoreFrame.refl s
  | succ n ih => exact StoreFrame.trans (StoreFrame.pumpStep flush s) (ih _)

theorem StoreFrame.pump (flush : Bool) (s : State) : StoreFrame s (s.pump flush) := StoreFrame.pumpSteps flush _ s

/-! ## Admission and reservations -/

theorem StoreFrame.admitRecord (s : State) (r : Record) : StoreFrame s (s.admitRecord r) := by
  simp only [State.admitRecord]
  split
  · exact (StoreFrame.goOut _ _).after (StoreFrame.ofStore _ _ rfl)
  · exact (StoreFrame.pump _ _).after (StoreFrame.ofStore _ _ rfl)

theorem StoreFrame.admitReserved (s : State) (body : RecordBody) : StoreFrame s (s.admitReserved body).2 :=
  (StoreFrame.admitRecord _ _).after (StoreFrame.ofStore _ _ rfl)

theorem StoreFrame.exhaust (s : State) : StoreFrame s s.exhaust := by
  unfold State.exhaust
  split
  · exact StoreFrame.refl s
  · exact StoreFrame.enterDegraded s

theorem StoreFrame.tryAdmit (s : State) (body : RecordBody) : StoreFrame s (s.tryAdmit body).2 := by
  unfold State.tryAdmit
  split
  · split
    · exact StoreFrame.admitRecord _ _
    · exact StoreFrame.refl s
  · exact StoreFrame.exhaust s

theorem StoreFrame.tryReserve (s : State) (k : Nat) : StoreFrame s (s.tryReserve k).2 := by
  unfold State.tryReserve
  split
  · split
    · exact StoreFrame.ofStore _ _ rfl
    · exact StoreFrame.refl s
  · exact StoreFrame.exhaust s

theorem StoreFrame.releaseReserved (s : State) (k : Nat) : StoreFrame s (s.releaseReserved k) := by
  unfold State.releaseReserved
  split
  · exact StoreFrame.refl s
  · exact (StoreFrame.tellDose _).after (StoreFrame.ofStore _ _ rfl)

/-- Everything an unreserved admission can answer (R123, R124, R130). -/
theorem State.tryAdmit_cases (s : State) (body : RecordBody) :
    (s.store.numbersAllowOne = true ∧ s.store.roomFor 1 = true
        ∧ s.tryAdmit body = (some s.store.nextSeq, s.admitRecord (s.makeRecord body)))
      ∨ (s.store.numbersAllowOne = true ∧ s.store.roomFor 1 = false ∧ s.tryAdmit body = (none, s))
      ∨ (s.store.numbersAllowOne = false ∧ s.tryAdmit body = (none, s.exhaust)) := by
  unfold State.tryAdmit
  cases h : s.store.numbersAllowOne <;> cases k : s.store.roomFor 1 <;> simp

/-- Everything a reservation can answer (R125). -/
theorem State.tryReserve_cases (s : State) (k : Nat) :
    (s.store.numbersAllow k = true ∧ s.store.roomFor k = true
        ∧ s.tryReserve k = (true, { s with store := { s.store with reserved := s.store.reserved + k } }))
      ∨ (s.store.numbersAllow k = true ∧ s.store.roomFor k = false ∧ s.tryReserve k = (false, s))
      ∨ (s.store.numbersAllow k = false ∧ s.tryReserve k = (false, s.exhaust)) := by
  unfold State.tryReserve
  cases h : s.store.numbersAllow k <;> cases j : s.store.roomFor k <;> simp

/-! ## The settling of the store -/

theorem candidateTest_mem (n : Nat) (st : Store) : (candidateTest n st).mem = st.mem := by
  induction n generalizing st with
  | zero => rfl
  | succ n ih =>
    unfold candidateTest
    split
    · split
      · split
        · split
          · rfl
          · rw [ih]
        · rfl
      · split
        · rw [ih]; rfl
        · rfl
    · rfl

theorem StoreFrame.testCandidate (s : State) : StoreFrame s s.testCandidate :=
  StoreFrame.ofStore _ _ (candidateTest_mem _ _)

theorem StoreFrame.endHold (s : State) : StoreFrame s s.endHold := by
  unfold State.endHold
  split
  · exact (StoreFrame.tellDose _).after (StoreFrame.ofStore _ _ rfl)
  · exact StoreFrame.refl s

/-- Asking for a carry read changes the waiting reads alone, and only while carry is due, none is buffered, and none is in flight
or waiting to be made (R134). -/
theorem Store.askCarry_cases (st : Store) :
    st.askCarry = st
    ∨ ∃ seq, st.nextCarry = some seq ∧ st.status = .ready ∧ 0 < st.carryDue ∧ st.carryBuf = none ∧ st.carryReading = false
      ∧ st.askCarry = { st with reads := st.reads ++ [.carry seq] } := by
  unfold Store.askCarry
  split
  · rename_i h
    simp only [Bool.and_eq_true, beq_iff_eq, decide_eq_true_eq, Bool.not_eq_true', Option.isNone_iff_eq_none] at h
    split
    · rename_i seq hs
      exact .inr ⟨seq, hs, h.1.1.1, h.1.1.2, h.1.2, h.2, rfl⟩
    · exact .inl rfl
  · exact .inl rfl

@[simp] theorem Store.askCarry_mem (st : Store) : st.askCarry.mem = st.mem := by
  rcases st.askCarry_cases with h | ⟨_, _, _, _, _, _, h⟩ <;> rw [h]

theorem StoreFrame.grantArray (s : State) : StoreFrame s s.grantArray := by
  unfold State.grantArray
  split
  · exact StoreFrame.refl s
  · split
    · exact StoreFrame.ofStore _ _ rfl
    · split
      · exact StoreFrame.ofStore _ _ rfl
      · exact StoreFrame.grantReads _ _

theorem StoreFrame.settle (s : State) : StoreFrame s s.settle :=
  (StoreFrame.grantArray _).after <| (StoreFrame.ofStore _ _ (by simp)).after <| (StoreFrame.endHold _).after <|
    (StoreFrame.testCandidate _).after <| (StoreFrame.pump _ _).after <| StoreFrame.testCandidate s

end Sys2Proof.Machine
end

