-- ==== Sys2Proof/Laws/Flight.lean ====
section
/-! SUPPORT. The shared operations of the store controller name pages and blocks inside the array alone (R120, R126, R131,
R136): each keeps `FlightOk`. -/

namespace Sys2Proof.Machine

theorem mem_numbersFrom {a n k : Nat} : k ∈ numbersFrom a n → a ≤ k ∧ k < a + n := by
  induction n generalizing a with
  | zero => simp [numbersFrom]
  | succ n ih =>
    intro h
    rw [numbersFrom, List.mem_cons] at h
    rcases h with rfl | h
    · omega
    · have := ih h
      omega

/-- The blocks in ring order are blocks 0..63 (R131). -/
theorem mem_ringAfter {h b : Nat} (hb : b ∈ ringAfter h) : b < 64 := by
  obtain ⟨k, -, rfl⟩ := List.mem_map.1 hb
  exact Nat.mod_lt _ (by decide)

/-- The search of the next target changes the block index and the head page alone (R131). -/
theorem Store.nextTarget_eq {st t : Store} (h : st.nextTarget = some t) :
    t = { st with blocks := t.blocks, headPage := t.headPage } := by
  unfold Store.nextTarget at h
  simp only at h
  split at h
  · cases h
    rfl
  · split at h
    · cases h
    · cases h
      simp only [Store.setBlock]
      split <;> rfl

/-- The next target is a page of the array (R131), and its search changes the block index and the head page alone. -/
theorem Store.nextTarget_cases {st t : Store} (h : st.nextTarget = some t) (hp : st.headPage < 1024) :
    t.headPage < 1024 ∧ t = { st with blocks := t.blocks, headPage := t.headPage } := by
  refine ⟨?_, Store.nextTarget_eq h⟩
  unfold Store.nextTarget at h
  simp only at h
  split at h
  · rename_i hc
    cases h
    have : st.headPage % 16 < 15 := by simp at hc; omega
    simp only
    omega
  · split at h
    · cases h
    · rename_i b hb
      cases h
      have := mem_ringAfter (List.mem_of_find?_eq_some hb)
      simp only
      omega

@[simp] theorem Store.noteFirst_buffered (st : Store) (page : Nat) (records : List Record) :
    (st.noteFirst page records).buffered = st.buffered := by
  unfold Store.noteFirst
  simp only
  split <;> rfl

@[simp] theorem Store.retargetProgram_buffered (st : Store) : st.retargetProgram.2.buffered = st.buffered := by
  unfold Store.retargetProgram Store.giveTarget
  split
  · rename_i p hp
    split
    · rename_i t ht
      rw [Store.nextTarget_eq ht]
      simp only [Store.noteFirst_buffered]
      simp only [Store.buffered, hp]
    · rfl
  · rfl

@[simp] theorem Store.retargetClosed_buffered (st : Store) : st.retargetClosed.2.buffered = st.buffered := by
  unfold Store.retargetClosed Store.giveTarget
  split
  · rename_i p hp
    split
    · rename_i t ht
      rw [Store.nextTarget_eq ht]
      simp only [Store.noteFirst_buffered]
      simp only [Store.buffered, hp]
    · rfl
  · rfl

@[simp] theorem Store.retargetFill_buffered (st : Store) : st.retargetFill.2.buffered = st.buffered := by
  unfold Store.retargetFill Store.giveTarget
  split
  · rename_i p hp
    split
    · rename_i t ht
      rw [Store.nextTarget_eq ht]
      simp only [Store.noteFirst_buffered]
      simp only [Store.buffered, hp]
    · rfl
  · rfl

/-- Moving the targets of the buffers keeps every buffered record, in its order (R129 step 2). -/
@[simp] theorem Store.retarget_buffered (st : Store) (base : Nat) : (st.retarget base).2.buffered = st.buffered := by
  have hr : (st.rewind base).buffered = st.buffered := by
    simp only [Store.rewind]
    split <;> rfl
  simp only [Store.retarget]
  split
  · split <;> simp [hr]
  · rfl

/-! ## What leaves the store controller as it is -/

@[simp] theorem State.answerScanner_store (s : State) (a : Nat) (r : ScanReply) : (s.answerScanner a r).store = s.store := by
  unfold State.answerScanner
  split <;> rfl

@[simp] theorem State.reportRecord_store (s : State) (stored : Bool) (seq : Nat) : (s.reportRecord stored seq).store = s.store := by
  unfold State.reportRecord
  split
  · rfl
  · simp only [State.answerScanner_store]
    rfl

@[simp] theorem State.goOut_store (s : State) (r : Record) : (s.goOut r).store = s.store := by
  simp only [State.goOut, State.reportRecord_store]
  rfl

@[simp] theorem State.goOut_foldl_store (l : List Record) (s : State) : (l.foldl State.goOut s).store = s.store := by
  induction l generalizing s with
  | nil => rfl
  | cons r l ih => rw [List.foldl_cons, ih, State.goOut_store]

@[simp] theorem State.tellDose_store (s : State) : s.tellDose.store = s.store := by
  unfold State.tellDose
  split <;> rfl

end Sys2Proof.Machine

namespace Sys2Proof

open Machine

/-! ## What keeps `FlightOk` -/

/-- What `FlightOk` says depends on these fields of the store controller alone. -/
theorem FlightOk.of_eq {s t : State} (h : FlightOk s) (hh : t.store.headPage = s.store.headPage)
    (hf : t.store.fill = s.store.fill) (hc : t.store.closed = s.store.closed) (hp : t.store.program = s.store.program)
    (hk : t.store.candidate = s.store.candidate) (hl : t.store.flight = s.store.flight) : FlightOk t := by
  unfold FlightOk at *
  rw [hh, hf, hc, hp, hk, hl]
  exact h

theorem FlightOk.of_store {s t : State} (h : FlightOk s) (hs : t.store = s.store) : FlightOk t := by
  unfold FlightOk at *
  rw [hs]
  exact h

/-- A read granted, or none left, keeps it. -/
theorem FlightOk.grantReads (l : List ReadReq) {s : State} (h : FlightOk s) (hf : s.store.flight = none) :
    FlightOk (Machine.grantReads l s) := by
  induction l generalizing s with
  | nil => exact h.of_eq rfl rfl rfl rfl rfl rfl
  | cons r l ih =>
    unfold Machine.grantReads
    split
    · exact ⟨h.1, h.2.1, h.2.2.1, h.2.2.2.1, trivial⟩
    · cases r with
      | carry => exact ih h hf
      | page => exact ih h hf
      | fetch => exact ih (h.of_eq rfl rfl rfl rfl rfl rfl) hf
      | raise => exact ih (h.of_eq rfl rfl rfl rfl rfl rfl) hf

/-- Entering DEGRADED leaves no buffer, no candidate, and no operation but a read in flight (R130). -/
theorem FlightOk.enterDegraded {s : State} (h : FlightOk s) : FlightOk s.enterDegraded := by
  unfold State.enterDegraded
  split
  · exact h
  · simp only
    split
    · rename_i op hop
      simp only [State.tellDose_store, State.goOut_foldl_store] at hop
      unfold FlightOk
      simp only [State.tellDose_store, State.goOut_foldl_store]
      refine ⟨h.1, (fun _ hf => nomatch hf), (fun _ hf => hf.elim (fun h => nomatch h) (fun h => nomatch h)),
        (fun _ hf => nomatch hf), ?_⟩
      · cases hfl : s.store.flight with
        | none => simp
        | some op =>
          cases op with
          | read r b => cases r <;> simp
          | _ => simp
    · rename_i hop
      refine FlightOk.grantReads _ ?_ hop
      unfold FlightOk
      rw [hop]
      simp only [State.tellDose_store, State.goOut_foldl_store]
      exact ⟨h.1, (fun _ hf => nomatch hf), (fun _ hf => hf.elim (fun h => nomatch h) (fun h => nomatch h)),
        (fun _ hf => nomatch hf), trivial⟩

/-- A fill page opens at a page of the array (R126, R131). -/
theorem FlightOk.openFill {s : State} (h : FlightOk s) : FlightOk s.openFill := by
  unfold State.openFill
  split
  · rename_i st hst
    obtain ⟨hp, he⟩ := Store.nextTarget_cases hst h.1
    rw [he]
    exact ⟨hp, fun f hf => by cases hf; exact hp, h.2.2.1, h.2.2.2.1, h.2.2.2.2⟩
  · exact h.enterDegraded

theorem FlightOk.startProgramPage {s : State} (h : FlightOk s) (p : PageBuf) (hp : p.target < 1024) :
    FlightOk (s.startProgramPage p) :=
  FlightOk.openFill ⟨h.1, (fun _ hf => nomatch hf), (fun q hq => hq.elim (fun hq => nomatch hq) (fun hq => by cases hq; exact hp)),
    h.2.2.2.1, h.2.2.2.2⟩

/-- One step of the buffers (R126 to R128). -/
theorem FlightOk.pumpStep {s : State} (h : FlightOk s) (flush : Bool) : FlightOk (s.pumpStep flush) := by
  unfold State.pumpStep
  split
  · split
    · rename_i p hp
      split
      · exact h.startProgramPage p (h.2.2.1 p (.inl hp))
      · exact h
    · exact h
  · rename_i f hf
    have ht : f.target < 1024 := h.2.1 f hf
    split
    · unfold State.closeFill
      simp only
      split
      · refine FlightOk.startProgramPage ?_ ⟨f.target, f.records⟩ ht
        exact h.of_eq rfl rfl rfl rfl rfl rfl
      · exact ⟨h.1, (fun _ hq => nomatch hq),
          (fun q hq => hq.elim (fun hq => by cases hq; exact ht) (fun hq => h.2.2.1 q (.inr hq))), h.2.2.2.1, h.2.2.2.2⟩
    · split
      · split
        · unfold State.moveRecord
          refine FlightOk.of_store (s := { s with store := _ }) ?_ (State.tellDose_store _)
          unfold Store.noteFirst
          simp only
          split <;>
          exact ⟨h.1, (fun q hq => by cases hq; exact ht), h.2.2.1, h.2.2.2.1, h.2.2.2.2⟩
        · exact h
      · exact h

theorem FlightOk.pump {s : State} (h : FlightOk s) (flush : Bool) : FlightOk (s.pump flush) := by
  unfold State.pump
  generalize s.store.queue.length + 5 = n
  induction n generalizing s with
  | zero => exact h
  | succ n ih => exact ih (h.pumpStep flush)

/-- The candidate test changes the block index, the candidate and its copies and the carry due alone, and chooses a block of
the array (R132, R135). -/
theorem candidateTest_cases (n : Nat) (st : Store) (h : ∀ c, st.candidate = some c → c < 64) :
    let t := candidateTest n st
    (∀ c, t.candidate = some c → c < 64)
    ∧ t = { st with blocks := t.blocks, candidate := t.candidate, copies := t.copies, carryDue := t.carryDue } := by
  induction n generalizing st with
  | zero => exact ⟨h, rfl⟩
  | succ n ih =>
    simp only [candidateTest]
    split
    · split
      · split
        · split
          · exact ⟨h, rfl⟩
          · rename_i b hb
            have hb64 := mem_ringAfter (List.mem_of_find?_eq_some hb)
            obtain ⟨h1, h2⟩ := ih { st with candidate := some b, copies := [], carryDue := st.pinnedIn b }
              (fun c hc => by cases hc; exact hb64)
            exact ⟨h1, by rw [h2]⟩
        · exact ⟨h, rfl⟩
      · split
        · rename_i c _ _
          obtain ⟨h1, h2⟩ := ih { st.setBlock c { st.block c with content := .bare, firstSeq := none } with
            candidate := none, copies := [] } (fun _ hc => nomatch hc)
          exact ⟨h1, by rw [h2]; rfl⟩
        · exact ⟨h, rfl⟩
    · exact ⟨h, rfl⟩

theorem FlightOk.testCandidate {s : State} (h : FlightOk s) : FlightOk s.testCandidate := by
  obtain ⟨h1, h2⟩ := candidateTest_cases 130 s.store h.2.2.2.1
  unfold State.testCandidate
  unfold FlightOk
  rw [h2]
  exact ⟨h.1, h.2.1, h.2.2.1, h1, h.2.2.2.2⟩

theorem FlightOk.endHold {s : State} (h : FlightOk s) : FlightOk s.endHold := by
  unfold State.endHold
  split
  · exact FlightOk.of_store (s := { s with store := { s.store with hold := false } }) (h.of_eq rfl rfl rfl rfl rfl rfl)
      (State.tellDose_store _)
  · exact h

/-- What the arbiter grants is inside the array (R136). -/
theorem FlightOk.grantArray {s : State} (h : FlightOk s) : FlightOk s.grantArray := by
  unfold State.grantArray
  split
  · exact h
  · rename_i hf
    split
    · rename_i op hop
      refine ⟨h.1, h.2.1, h.2.2.1, h.2.2.2.1, ?_⟩
      unfold Store.programWaiting at hop
      split at hop
      · rename_i p hp
        have ht := h.2.2.1 p (.inr hp)
        split at hop
        · cases hop
          by_cases hv : s.store.voiding = true <;> simp only [hv, if_true, Bool.false_eq_true, if_false] <;> exact ht
        · cases hop
      · cases hop
    · split
      · rename_i c hc
        refine ⟨h.1, h.2.1, h.2.2.1, h.2.2.2.1, ?_⟩
        unfold Store.eraseWaiting at hc
        split at hc
        · rename_i k hk
          split at hc
          · cases hc
            exact h.2.2.2.1 c hk
          · cases hc
        · cases hc
      · exact h.grantReads _ hf

/-- The settling of the store after an event keeps the pages and blocks it names inside the array. -/
theorem FlightOk.settle {s : State} (h : FlightOk s) : FlightOk s.settle := by
  unfold State.settle
  have k := (h.testCandidate.pump true).testCandidate.endHold
  refine FlightOk.grantArray (FlightOk.of_eq k ?_ ?_ ?_ ?_ ?_ ?_) <;>
    · simp only [Store.askCarry]
      split
      · split <;> rfl
      · rfl

end Sys2Proof
end

