-- ==== Sys2Proof/Laws/Memory.lean ====
section
/-! SUPPORT. The custody array keeps its canonical form, a read after a write gives what was written, and every other
byte is left alone. -/

namespace Sys2Proof.Machine

theorem memWfFrom_mono {m : Mem} {a b : Nat} (h : memWfFrom b m = true) (hab : a ≤ b) : memWfFrom a m = true := by
  cases m with
  | nil => rfl
  | cons c cs =>
    simp only [memWfFrom, Bool.and_eq_true, decide_eq_true_eq] at h ⊢
    exact ⟨⟨by omega, h.1.2⟩, h.2⟩

theorem memWfFrom_filter (p : Host.Cell → Bool) {m : Mem} {a : Nat} (h : memWfFrom a m = true) :
    memWfFrom a (m.filter p) = true := by
  induction m generalizing a with
  | nil => rfl
  | cons c cs ih =>
    simp only [memWfFrom, Bool.and_eq_true, decide_eq_true_eq] at h
    simp only [List.filter]
    split
    · simp only [memWfFrom, Bool.and_eq_true, decide_eq_true_eq]
      exact ⟨h.1, ih h.2⟩
    · exact ih (memWfFrom_mono h.2 (by omega))

theorem memWfFrom_append {m k : Mem} {a b : Nat} (hm : memWfFrom a m = true) (hk : memWfFrom b k = true)
    (hab : a ≤ b) (hlt : ∀ c ∈ m, c.1 < b) : memWfFrom a (m ++ k) = true := by
  induction m generalizing a with
  | nil => exact memWfFrom_mono hk hab
  | cons c cs ih =>
    simp only [memWfFrom, Bool.and_eq_true, decide_eq_true_eq] at hm
    simp only [List.cons_append, memWfFrom, Bool.and_eq_true, decide_eq_true_eq]
    have hc := hlt c (by simp)
    exact ⟨hm.1, ih hm.2 (by omega) (fun d hd => hlt d (by simp [hd]))⟩

theorem memWfFrom_from {m : Mem} {a b : Nat} (h : memWfFrom a m = true) : memWfFrom b (memFrom m b) = true := by
  induction m generalizing a with
  | nil => rfl
  | cons c cs ih =>
    simp only [memWfFrom, Bool.and_eq_true, decide_eq_true_eq] at h
    unfold memFrom at ih ⊢
    simp only [List.filter]
    split
    · rename_i hc
      simp only [decide_eq_true_eq] at hc
      simp only [memWfFrom, Bool.and_eq_true, decide_eq_true_eq]
      exact ⟨⟨hc, h.1.2⟩, memWfFrom_filter _ h.2⟩
    · exact ih h.2

theorem cellsOf_wf (bytes : List Byte) (a : Nat) : memWfFrom a (cellsOf a bytes) = true := by
  induction bytes generalizing a with
  | nil => rfl
  | cons b bs ih =>
    simp only [cellsOf]
    split
    · exact memWfFrom_mono (ih (a + 1)) (by omega)
    · rename_i hb
      simp only [memWfFrom, Bool.and_eq_true, decide_eq_true_eq]
      exact ⟨⟨by omega, by simpa using hb⟩, ih (a + 1)⟩

theorem cellsOf_bounds (bytes : List Byte) (a : Nat) : ∀ c ∈ cellsOf a bytes, a ≤ c.1 ∧ c.1 < a + bytes.length := by
  induction bytes generalizing a with
  | nil => simp [cellsOf]
  | cons b bs ih =>
    intro c hc
    simp only [cellsOf] at hc
    split at hc
    · have := ih (a + 1) c hc
      simp only [List.length_cons]; omega
    · simp only [List.mem_cons] at hc
      rcases hc with rfl | hc
      · simp
      · have := ih (a + 1) c hc
        simp only [List.length_cons]; omega

theorem memBelow_bound (m : Mem) (a : Nat) : ∀ c ∈ memBelow m a, c.1 < a := by
  intro c hc
  simpa using (List.mem_filter.mp hc).2

theorem memFrom_bound (m : Mem) (a : Nat) : ∀ c ∈ memFrom m a, a ≤ c.1 := by
  intro c hc
  simpa using (List.mem_filter.mp hc).2

/-- A write keeps the canonical form. -/
theorem memWrite_wf (m : Mem) (a : Nat) (bytes : List Byte) (h : memWf m = true) : memWf (memWrite m a bytes) = true := by
  unfold memWf memWrite
  have hb : memWfFrom 0 (memBelow m a) = true := memWfFrom_filter _ h
  have hc := cellsOf_wf bytes a
  have hf : memWfFrom (a + bytes.length) (memFrom m (a + bytes.length)) = true := memWfFrom_from h
  refine memWfFrom_append (memWfFrom_append hb hc (by omega) (memBelow_bound m a)) hf (by omega) ?_
  intro c hcm
  rcases List.mem_append.mp hcm with h1 | h1
  · have := memBelow_bound m a c h1; omega
  · exact (cellsOf_bounds bytes a c h1).2

/-- An erase keeps the canonical form. -/
theorem memErase_wf (m : Mem) (a n : Nat) (h : memWf m = true) : memWf (memErase m a n) = true := by
  unfold memWf memErase
  exact memWfFrom_append (memWfFrom_filter _ h) (memWfFrom_from h) (by omega)
    (fun c hc => by have := memBelow_bound m a c hc; omega)

/-! ## Reads -/

theorem memRead_append (m k : Mem) (a : Nat) :
    memRead (m ++ k) a = if m.any (fun c => c.1 == a) then memRead m a else memRead k a := by
  induction m with
  | nil => simp
  | cons c cs ih =>
    simp only [List.cons_append, memRead, List.any_cons]
    by_cases h : c.1 = a
    · simp [h]
    · simp [h, ih]

theorem memRead_absent (m : Mem) (a : Nat) (h : ∀ c ∈ m, c.1 ≠ a) : memRead m a = erasedByte := by
  induction m with
  | nil => rfl
  | cons c cs ih =>
    simp only [memRead]
    rw [if_neg (h c (by simp))]
    exact ih (fun d hd => h d (by simp [hd]))

theorem memRead_filter (p : Host.Cell → Bool) (m : Mem) (a : Nat) (h : ∀ c ∈ m, c.1 = a → p c = true) :
    memRead (m.filter p) a = memRead m a := by
  induction m with
  | nil => rfl
  | cons c cs ih =>
    have hcs := ih (fun d hd => h d (by simp [hd]))
    by_cases hp : p c = true
    · simp only [List.filter_cons, hp, if_true, memRead, hcs]
    · have : c.1 ≠ a := fun e => hp (h c (by simp) e)
      simp only [List.filter_cons, hp, memRead, if_neg this]
      simpa using hcs

theorem memRead_below (m : Mem) (a b : Nat) (h : b < a) : memRead (memBelow m a) b = memRead m b :=
  memRead_filter _ _ _ (fun c _ hc => by simp [hc, h])

theorem memRead_from (m : Mem) (a b : Nat) (h : a ≤ b) : memRead (memFrom m a) b = memRead m b :=
  memRead_filter _ _ _ (fun c _ hc => by simp [hc, h])

theorem memRead_cellsOf (bytes : List Byte) (a i : Nat) (h : i < bytes.length) :
    memRead (cellsOf a bytes) (a + i) = bytes.getD i erasedByte := by
  induction bytes generalizing a i with
  | nil => simp at h
  | cons b bs ih =>
    simp only [cellsOf]
    cases i with
    | zero =>
      split
      · rename_i hb
        rw [memRead_absent]
        · simp [hb]
        · intro c hc
          have := cellsOf_bounds bs (a + 1) c hc
          omega
      · simp [memRead]
    | succ j =>
      have hj : j < bs.length := by simpa using h
      have e : a + (j + 1) = a + 1 + j := by omega
      split
      · rw [e, ih (a + 1) j hj]; simp
      · simp only [memRead]
        rw [if_neg (by omega), e, ih (a + 1) j hj]; simp

theorem any_false_of_ne (m : Mem) (a : Nat) (h : ∀ c ∈ m, c.1 ≠ a) : (m.any (fun c => c.1 == a)) = false := by
  simp only [List.any_eq_false, beq_iff_eq]
  exact h

/-- A write leaves every other byte alone. -/
theorem memRead_memWrite_out (m : Mem) (a b : Nat) (bytes : List Byte) (h : b < a ∨ a + bytes.length ≤ b) :
    memRead (memWrite m a bytes) b = memRead m b := by
  unfold memWrite
  rw [List.append_assoc, memRead_append]
  rcases h with h | h
  · split
    · exact memRead_below m a b h
    · rename_i hn
      have h1 : memRead (memBelow m a) b = erasedByte := memRead_absent _ _ (by
        intro c hc e
        exact hn (List.any_eq_true.mpr ⟨c, hc, by simp [e]⟩))
      rw [memRead_absent, ← h1, memRead_below m a b h]
      intro c hc
      rcases List.mem_append.mp hc with h2 | h2
      · have := cellsOf_bounds bytes a c h2; omega
      · have := memFrom_bound m _ c h2; omega
  · rw [any_false_of_ne, if_neg (by simp), memRead_append, any_false_of_ne, if_neg (by simp)]
    · exact memRead_from m _ b h
    · intro c hc; have := cellsOf_bounds bytes a c hc; omega
    · intro c hc; have := memBelow_bound m a c hc; omega

/-- A byte that a write covers reads as written. -/
theorem memRead_memWrite_in (m : Mem) (a i : Nat) (bytes : List Byte) (h : i < bytes.length) :
    memRead (memWrite m a bytes) (a + i) = bytes.getD i erasedByte := by
  unfold memWrite
  rw [List.append_assoc, memRead_append, any_false_of_ne, if_neg (by simp), memRead_append]
  · split
    · exact memRead_cellsOf bytes a i h
    · rename_i hn
      rw [memRead_absent]
      · rw [← memRead_cellsOf bytes a i h, memRead_absent]
        intro c hc e
        exact hn (List.any_eq_true.mpr ⟨c, hc, by simp [e]⟩)
      · intro c hc; have := memFrom_bound m _ c hc; omega
  · intro c hc; have := memBelow_bound m a c hc; omega

/-- An erased byte reads as erased, and an erase leaves every other byte alone (R120). -/
theorem memRead_memErase (m : Mem) (a n b : Nat) :
    memRead (memErase m a n) b = if a ≤ b ∧ b < a + n then erasedByte else memRead m b := by
  have e : memErase m a n = memWrite m a (List.replicate n erasedByte) := by
    have hc : ∀ (k c : Nat), cellsOf c (List.replicate k erasedByte) = [] := by
      intro k
      induction k with
      | zero => intro c; rfl
      | succ k ih => intro c; simp [List.replicate_succ, cellsOf, ih]
    simp [memErase, memWrite, hc]
  rw [e]
  split
  · rename_i h
    obtain ⟨i, rfl⟩ : ∃ i, b = a + i := ⟨b - a, by omega⟩
    rw [memRead_memWrite_in m a i _ (by simp; omega)]
    simp only [List.getD_eq_getElem?_getD, List.getElem?_replicate]
    split <;> rfl
  · rename_i h
    exact memRead_memWrite_out m a b _ (by simp only [List.length_replicate]; omega)

/-- Bytes that are all erased read as erased. -/
theorem memRead_memErased (m : Mem) (a n b : Nat) (h : memErased m a n = true) (hl : a ≤ b) (hu : b < a + n) :
    memRead m b = erasedByte := by
  induction m with
  | nil => rfl
  | cons c cs ih =>
    simp only [memErased, List.all_cons, Bool.and_eq_true] at h
    unfold memRead
    split
    · rename_i hc
      have hb := h.1
      simp only [Bool.or_eq_true, decide_eq_true_eq, beq_iff_eq] at hb
      rcases hb with hb | hb
      · omega
      · exact hb
    · exact ih h.2

end Sys2Proof.Machine
end

