-- ==== Sys2Proof/Tests/Slice0.lean ====
section
/-! SUPPORT. Tests: what each well-formedness check refuses, the spec's own check values and worked examples on one step each,
and, for each statement with hypotheses, a state and operands that meet them. -/

namespace Sys2Proof.Tests

open Sys2Proof.Machine

/-! Each test is decided in its turn: many kernel evaluations at once take more memory than they save time. -/
set_option Elab.async false

/-! ## Small states -/

/-- Does the command answer a next state that satisfies `p`? -/
def next (c : Instr) (s : State) (p : State → Bool) : Bool :=
  match exec c s with
  | .next t => p t
  | _ => false

/-- Does the command stop with a fault? -/
def faults (c : Instr) (s : State) : Bool :=
  match exec c s with
  | .fault _ => true
  | _ => false

/-- A store controller that is READY, with an open fill page at page 0 and record 1 as its next. -/
def readyStore : Store :=
  { Store.initial with
    status := .ready
    fill := some ⟨0, [], none, false⟩
    blocks := tabPut Store.initial.blocks 0 ⟨false, .head, none⟩ }

/-- The profile of the spec's worked case "hardened" (spec/03). -/
def hardened : Profile := ⟨true, -288, -96, 3, 64, 120, 30⟩

/-- A RESIDENT lot of zone 1 under profile 0. -/
def lotOne : Lot :=
  { Lot.blank with state := .resident, id := 500101, zone := 1, quantity := 4, evidence := [1], peak := -300, lastTemp := -300 }

/-- A part with a READY store, zones 1 and 2 IN, profile 0 loaded, and lot 0 on the list of zone 1. -/
def part : State :=
  { State.reset with
    store := readyStore
    claims := { ClaimTable.initial with rebuild := .no }
    zones := rowPut (rowPut State.reset.zones 1 { Zone.initial with inService := true }) 2 { Zone.initial with inService := true }
    pool := { Pool.initial with
      lots := tabPut Pool.initial.lots 0 lotOne
      free := (List.range 64).tail
      lists := rowPut Pool.initial.lists 1 [0]
      profiles := tabPut Pool.initial.profiles 0 hardened } }

/-- The part at a time. -/
def at_ (now : Nat) (s : State) : State := { s with time := { s.time with now := now } }

/-- An enrolled address of a role in zone 1. -/
def nodeAs (role : Role) (box : Mailbox) : Node := ⟨some ⟨role, some 1, 0, false⟩, .present, 0, box, none, .clear⟩

/-- An enrolled scanner. -/
def scannerAs (r : ScannerRecord) : Node := ⟨some ⟨.scanner, none, 0, false⟩, .present, 0, .none, some r, .clear⟩

/-- The part with a node at an address. -/
def with_ (a : Nat) (n : Node) (s : State) : State := s.setNode a n

/-- The part with the poll exchange of an address open. -/
def polled (a : Nat) (s : State) : State := { s with coord := { s.coord with line := .poll a, nextAddress := a } }

/-- The part with the store changed. -/
def stored (st : Store) (s : State) : State := { s with store := st }

/-- The part with lot entry 0 replaced. -/
def lotIs (l : Lot) (s : State) : State := s.setLot 0 l

/-- The token that scanner 7 holds on lot 0, taken at 10. -/
def use7 : TokenUse := ⟨0, 500101, 7, 10, some 130, none⟩

/-- The part with lot 0 HELD under token 0 by scanner 7. -/
def heldPart : State :=
  ((with_ 7 (scannerAs ⟨some 0, none, none⟩) part).setToken 0 (some use7)).setLot 0 { lotOne with state := .held, token := some 0 }

/-- The part with lot 0 CLOSING under token 0, its fence clear and three admissions reserved. -/
def closingPart (c : CommitField) (l : Lot) : State :=
  { ((with_ 7 (scannerAs ⟨some 0, none, some ⟨500101, none, none, none, false⟩⟩) part).setToken 0
      (some { use7 with expiry := none, commit := some c })).setLot 0 { l with state := .closing, token := some 0 } with
    fences := [⟨.commit 0, 0, 1, none, false⟩]
    store := { readyStore with reserved := 3 } }

/-- A record of kind 4 with a number. -/
def recordNo (n : Nat) : Record := ⟨n, n, 0, 4, false, false, 0, 0, 0, List.replicate 35 0, 0⟩

/-- A tick of zone 1. -/
def tickAt (time span : Nat) (kind : TickKind) : Tick := ⟨1, time, span, false, 0, 0, kind⟩

/-- The part with dose items in its queue, the cursor on lot 0. -/
def walking (items : List DoseItem) (s : State) : State :=
  { s with dose := { s.dose with queue := items, cursor := some 0 } }

/-! ## Well-formedness refuses what a sender cannot give -/

theorem test_wf_field_address :
    [Instr.sample 0 0 0 0, .door 32 0 0, .unit 0 0 0, .idle 32, .misfit 0 9 [], .stranger 32 9 [], .hold 0 1, .release 32 1,
      .commit 0 1 0 0 0].all (fun c => !c.wf) = true
    ∧ [Instr.sample 1 0 0 0, .door 31 1 255, .unit 31 2 1, .idle 1, .hold 31 0].all Instr.wf = true := by decide

theorem test_wf_door_state : (Instr.door 1 2 0).wf = false := by decide
theorem test_wf_unit_report : (Instr.unit 1 3 0).wf = false ∧ (Instr.unit 1 0 2).wf = false := by decide
theorem test_wf_body_length :
    (Instr.misfit 1 9 (List.replicate 49 0)).wf = false ∧ (Instr.stranger 1 9 (List.replicate 48 0)).wf = true := by decide
theorem test_wf_zone : (Instr.pacingExpiry 0).wf = false ∧ (Instr.pacingExpiry 9).wf = false ∧ (Instr.pacingExpiry 8).wf = true := by
  decide
theorem test_wf_token : (Instr.closingEvent 4).wf = false ∧ (Instr.holdExpiry 4).wf = false ∧ (Instr.holdExpiry 3).wf = true := by
  decide
theorem test_wf_entry : (Instr.moveEvent 64).wf = false ∧ (Instr.moveEvent 63).wf = true := by decide
theorem test_wf_block : (Instr.locateEnd [64]).wf = false ∧ (Instr.locateEnd [0, 63]).wf = true := by decide
theorem test_wf_restart_form : (Instr.restartWarm 0 2).wf = false ∧ (Instr.restartField 0 1).wf = false := by decide
theorem test_wf_request_kind :
    (Instr.badKind 0 32).wf = false ∧ (Instr.badLength 0 48).wf = false ∧ (Instr.badKind 0 48).wf = true := by decide

/-! ## Check values and frames (R122, R200; the frames written out from R199 and R204) -/

theorem test_crc16_check : crc16 [49, 50, 51, 52, 53, 54, 55, 56, 57] = 0x29B1 := by decide +kernel
theorem test_chain_check : chainCrc 0xFFFFFFFF [49, 50, 51, 52, 53, 54, 55, 56, 57] = 0x1CF96D7C := by decide +kernel

theorem test_frame_get : decodeTrunk [0x00, 0x20, 0x21, 0x09, 0x01, 0x03, 0x9D, 0xDA] = .get 9 3 := by decide +kernel
theorem test_frame_set_escaped :
    decodeTrunk [0x00, 0x20, 0x20, 0x01, 0x05, 0x0E, 0xC9, 0x83, 0xC9, 0x89, 0x00, 0x00, 0x7B, 0x99] = .set 1 14 0xC9C3 := by
  decide +kernel
theorem test_frame_raise_forms :
    decodeTrunk [0x00, 0x20, 0x2A, 0x07, 0x05, 0x01, 0x02, 0x03, 0x04, 0x05, 0x9C, 0x74] = .raiseById 7 0x0504030201
    ∧ decodeTrunk [0x00, 0x20, 0x2A, 0x07, 0x04, 0x01, 0x02, 0x03, 0x04, 0xE6, 0xB2] = .raiseByRecord 7 0x04030201 := by
  decide +kernel
theorem test_frame_bad_kind_and_length :
    decodeTrunk [0x00, 0x20, 0x30, 0x07, 0x00, 0x70, 0x7A] = .badKind 7 48
    ∧ decodeTrunk [0x00, 0x20, 0x2E, 0x07, 0x01, 0x01, 0x30, 0x35] = .badLength 7 46 := by decide +kernel
theorem test_frame_wrong_crc :
    decodeTrunk [0x00, 0x20, 0x21, 0x09, 0x01, 0x03, 0x9D, 0xDB] = .inboundTelegramDropped := by decide +kernel
/-- Junk before the first delimiter, a frame that a delimiter cuts off, a whole one with an escaped byte, junk, a wrong escape,
and one still open: three frames, the second of them a SET (R199). -/
theorem test_line_is_split :
    framesIn none [0x01, 0xC3, 0x00, 0x20, 0xC3, 0x00, 0x20, 0x20, 0x01, 0x05, 0x0E, 0xC9, 0x83, 0xC9, 0x89, 0x00, 0x00, 0x7B, 0x99,
        0x55, 0xC3, 0x00, 0xC9, 0x00, 0xC3, 0x00]
      = [[0x00, 0x20], [0x00, 0x20, 0x20, 0x01, 0x05, 0x0E, 0xC9, 0x83, 0xC9, 0x89, 0x00, 0x00, 0x7B, 0x99], [0x00, 0xC9, 0x00]]
    ∧ trunkCommands [0xC3, 0x00, 0xC3, 0x00, 0x20, 0x21, 0x09, 0x01, 0x03, 0x9D, 0xDA, 0x55]
      = [.inboundTelegramDropped, .get 9 3] := by decide +kernel
/-- A length of 49 ends the frame as its byte comes (R199). -/
theorem test_line_long_length :
    framesIn none [0xC3, 0, 32, 33, 9, 49, 1, 0xC3, 0, 32, 46, 7, 0, 0, 0] = [[0, 32, 33, 9, 49], [0, 32, 46, 7, 0, 0, 0]] := by
  decide +kernel
theorem test_frame_sample :
    decodeField (with_ 4 (nodeAs .probe (.probe .empty)) part) [0x00, 0x04, 0x03, 0x00, 0x04, 0x28, 0xDE, 0xFE, 0x00, 0x4D, 0xBA]
      = .sample 4 40 (-290) 0 := by decide +kernel

/-! ## Worked examples of the spec -/

/-- Sweeps 1, 3, 4 and 6 of "one probe over seven sweeps" (spec/01), from the mailbox of the row before. -/
theorem test_probe_sweeps :
    ProbeBox.empty.take (-3) 40 (-290) true = ⟨some (-293), some 40, true, false, false, 0⟩
    ∧ (ProbeBox.take ⟨some (-291), some 41, false, false, false, 0⟩ (-3) 41 (-286) true)
      = ⟨some (-291), some 41, false, false, true, 0⟩
    ∧ (ProbeBox.take ⟨some (-291), some 41, false, false, false, 0⟩ (-3) 44 (-280) true)
      = ⟨some (-283), some 44, true, false, false, 2⟩
    ∧ (ProbeBox.take ⟨some (-283), some 44, false, false, false, 2⟩ (-3) 45 1000 true)
      = ⟨some (-283), some 45, false, true, false, 2⟩ := by decide +kernel

/-- A sequence number 0 after 254 adds 1 to the lost count (spec/01). -/
theorem test_probe_sequence_wraps :
    (ProbeBox.take ⟨none, some 254, false, false, false, 5⟩ 0 0 0 true).lost = 6 := by decide +kernel

/-- The door at address 9 at 2,004 and 2,014 (spec/01, "change times for one door"); here in zone 1. -/
theorem test_door_change_times :
    let door := fun (now tick : Nat) (b : DoorBox) (state age : Byte) =>
      next (.door 9 state age) (at_ now (polled 9 (with_ 9 (nodeAs .door (.door b))
        (part.setZone 1 { part.zone 1 with lastTick := tick }))))
    door 2004 2000 ⟨.closed, some 1950, false⟩ 1 6 (fun t => (t.node 9).box == .door ⟨.opened, some 2000, true⟩) = true
    ∧ door 2009 2000 ⟨.opened, some 2000, false⟩ 1 11 (fun t => (t.node 9).box == .door ⟨.opened, some 2000, false⟩) = true
    ∧ door 2014 2009 ⟨.opened, some 2000, false⟩ 0 3 (fun t => (t.node 9).box == .door ⟨.closed, some 2011, true⟩) = true := by
  decide +kernel

/-- Items 1 to 4 of "four items on a hardened lot" (spec/03), each applied to the lot as the row before leaves it. -/
theorem test_dose_four_items :
    let lot0 : Lot := { lotOne with custodyStart := 1000, entered := 1000, asOf := 1000 }
    let one := (lot0.charge ⟨1, { tickAt 1003 5 (.watched (-160)) with openSeconds := 2, openings := 1 }⟩ hardened).1
    let two := (one.charge ⟨2, tickAt 1008 5 (.watched (-64))⟩ hardened).1
    let three := (two.charge ⟨3, tickAt 1013 5 (.blind (-32))⟩ hardened).1
    let four := (three.charge ⟨4, tickAt 1018 5 (.watched (-320))⟩ hardened).1
    (one.dose == 256 && one.run == some ⟨1000, 3, -160⟩ && one.meltRun == 0
      && two.dose == 1696 && two.meltRun == 5 && three.dose == 3616 && three.meltRun == 10
      && four.dose == 3616 && four.run == none && four.bands == ⟨1, 0, 0, 0, 0⟩ && four.seconds == 18 && four.peak == -32
      && four.lastTemp == -320 && four.asOf == 1018 && four.doorSeconds == 2) = true := by decide +kernel

/-- Items B, D and E of "a long excursion" (spec/03). -/
theorem test_dose_long_excursion :
    let b := (Lot.charge { lotOne with dose := 960, run := some ⟨5000, 60, -272⟩ }
      ⟨2, { tickAt 5120 60 (.watched (-80)) with openSeconds := 60, openings := 1 }⟩ hardened).1
    let d := (Lot.charge { lotOne with dose := 24000, meltRun := 60, run := some ⟨5000, 180, -80⟩ }
      ⟨4, tickAt 5240 60 (.watched (-60))⟩ hardened).1
    let e := (Lot.charge { lotOne with dose := 42000, meltRun := 120, run := some ⟨5000, 240, -60⟩ }
      ⟨5, { tickAt 5300 60 (.watched (-200)) with openSeconds := 10, openings := 1 }⟩ hardened).1
    (b.dose, b.meltRun, b.run) = (9600, 0, some ⟨5000, 120, -144⟩)
    ∧ (d.dose, d.meltRun, d.marks.melted, d.run) = (42000, 120, true, some ⟨5000, 240, -60⟩)
    ∧ (e.dose, e.meltRun, e.run) = (46640, 0, some ⟨5000, 300, -60⟩) := by decide +kernel

/-- "Saturation" (spec/03). -/
theorem test_dose_saturates :
    let l := (Lot.charge { lotOne with dose := 4290000000 } ⟨1, { tickAt 9000 3600 (.watched 960) with gap := true }⟩
      ⟨true, -960, -959, 4, 0, 120, 0⟩).1
    (l.dose, l.marks.saturated, l.marks.gap, l.marks.melted) = (4294967295, true, true, true) := by decide +kernel

/-- Item G of "a long excursion" (spec/03): the EXCURSION record is due, and its number joins the evidence. -/
theorem test_excursion_record :
    next .itemApplication (walking [⟨7, tickAt 5420 60 (.watched (-300))⟩]
        (lotIs { lotOne with dose := 48920, run := some ⟨5000, 360, -60⟩ } part))
      (fun t => (t.lot 0).bands == ⟨0, 0, 1, 0, 0⟩ && (t.lot 0).evidence == [1, 1] && (t.lot 0).dose == 48920
        && t.store.buffered.map (fun r => r.kind) == [4]) = true := by decide +kernel

/-- The rows at 1,200 and 1,500 of "a queue filling under a pause" (spec/08). -/
theorem test_queue_under_pause :
    let full : Trunk := { Trunk.initial with
      pause := some ⟨3000, 0, 0⟩
      queue := (numbersFrom 2300 10).map (fun n => Entry.record .stored (recordNo n))
        ++ [.alarm (part.alarmBody 1 0), .fieldCopy 4 3 0 [], .fieldCopy 4 3 0 [], .fieldCopy 6 3 0 []] }
    let two := (full.join (.record .stored (recordNo 2310))).join (.record .stored (recordNo 2311))
    let three := two.join (.alarm (part.alarmBody 1 0))
    (placesOf full.queue, two.bulkDrops, two.recordDrops) = (24, 2, 2)
    ∧ (placesOf three.queue, three.evictions, three.recordDrops, three.urgentDrops) = (23, 1, 3, 0) := by decide +kernel

/-- LOAD_NODE clamps its offset and answers CLAMPED with the entry as loaded (R6). -/
theorem test_load_node_clamps :
    next (.loadNode 5 4 1 1 1 100 0) part (fun t => (t.node 4).entry == some ⟨.probe, some 1, 31, false⟩
      && t.trunk.sending.map (fun x => x.tag) == [5]) = true := by decide +kernel

/-- A SET beyond its range is clamped (R172, R173), and an unknown setting is refused (R173). -/
theorem test_set_clamps :
    next (.set 1 1 61) part (fun t => t.trunk.settings.roadPeriod == 60) = true
    ∧ next (.set 1 16 0) part (fun t => t.trunk.settings == Settings.default) = true := by decide +kernel

/-- A wake opens ROAD for the wake hold (R190): HOLD from scanner 7 at 100. -/
theorem test_hold_wakes :
    next (.hold 7 500101) (at_ 100 (polled 7 (with_ 7 (scannerAs .empty) part)))
      (fun t => t.time.mode == .road && t.time.wakeUntil == 400 && (t.token 0).isSome && (t.lot 0).state == .held) = true := by
  decide +kernel

/-- The clock stays at its greatest value (R185). -/
theorem test_clock_stays : next .partSecondsStep (at_ 4294967295 part) (fun t => t.time.now == 4294967295) = true := by
  decide +kernel

/-- Pages that do not exist are a fault, those that do are not (R136). -/
theorem test_no_such_page :
    faults (.pageProgram true) (stored { readyStore with flight := some (.program 1024) } part) = true
    ∧ faults (.erase false) (stored { readyStore with flight := some (.erase 64) } part) = true
    ∧ next (.pageProgram true) (stored { readyStore with program := some ⟨1023, []⟩, flight := some (.program 1023) } part)
      (fun t => t.store.programs == 1) = true := by decide +kernel

/-- Of two marked records in the queue each is flushed with a page of its own: the first page closes as soon as it has taken the
first (R127). -/
theorem test_marked_records_flush_apart :
    let st := { readyStore with queue := [recordNo 1, recordNo 2], flushMarks := [1, 2], nextSeq := 3 }
    let t := (stored st part).settle
    (t.store.program == some ⟨0, [recordNo 1]⟩ && t.store.closed == some ⟨1, [recordNo 2]⟩ && t.store.flight == some (.program 0))
      = true := by decide +kernel

/-- A flush that waits when a closing begins is taken after it: its EXCURSION and HANDOVER records enter one page (R127). -/
theorem test_waiting_flush_after_admissions :
    let st := { readyStore with
      fill := some ⟨0, [recordNo 1], none, true⟩, flushMarks := [1], nextSeq := 2, reserved := 2
      closed := none, program := none }
    let s := stored st part
    let two := ((s.admitReserved (.start false 0 64 0)).2.admitReserved (.start false 0 64 0)).2
    (two.store.fill.map (fun f => f.records.map (fun r => r.seq)) == some [1, 2, 3] && two.store.closed == none
      && two.settle.store.program.map (fun p => p.records.length) == some 3) = true := by decide +kernel

/-- The rebuild reads the programmed pages: page 1 of block 0 is not programmed, page 2 is (R160). -/
theorem test_history_pages :
    Store.historyPages { readyStore with
      mem := memWrite (memWrite [] 0 (recordNo 1).bytes) 1024 (recordNo 2).bytes
      blocks := tabPut (tabPut readyStore.blocks 0 ⟨false, .history, some 1⟩) 1 ⟨false, .head, none⟩
      headPage := 16 } = [0, 2] := by decide +kernel

/-- A FETCH reads the block it was granted on, also when that block has become BARE meanwhile (R137). -/
theorem test_fetch_reads_granted_block :
    let st := { readyStore with
      mem := memWrite [] 8192 (recordNo 1).bytes
      blocks := tabPut readyStore.blocks 1 ⟨true, .bare, none⟩
      fetch := some (1, 7), flight := some (.read (.fetch 1 7) (some 1)), nextSeq := 2 }
    next .fetchRead (stored st part) (fun t =>
      t.trunk.sending == (Entry.fetchAnswer 7 .stored (recordNo 1)).telegrams) = true := by decide +kernel

/-- A warm restart frees the tokens and keeps the lots; a cold start empties all but the array (R196, R197). -/
theorem test_restarts :
    next (.restartWarm 1 1) heldPart (fun t => t.token 0 == none && (t.lot 0).state == .resident
      && t.time.warmRestarts == 1) = true
    ∧ next .vddRise { heldPart with time := { heldPart.time with vdd := false, retention := false } }
      (fun t => t.lot 0 == .blank && t.trunk.unsynced && t.store.status == .locate) = true := by decide +kernel

/-! ## States that meet the hypotheses of the statements: the field line and the zones -/

/-- Statements whose only hypothesis on the state is that VDD is present. -/
theorem witness_vdd_present : State.reset.time.vdd = true ∧ part.time.vdd = true := by decide

theorem witness_StepTakesFrontCommand : State.reset.pending = [] := rfl

theorem witness_DroppedTelegramsCounted :
    (State.reset.coord.line ≠ .poll 2 ∧ State.reset.coord.line ≠ .poll 0 ∧ State.reset.coord.line ≠ .poll 255)
    ∧ ∀ a ∈ [1, 31], let s := polled a (with_ a { scannerAs .empty with outstanding := .awaited } part)
      s.time.vdd = true ∧ s.coord.line = .poll a ∧ (s.node a).entry = some ⟨.scanner, none, 0, false⟩
        ∧ (s.node a).outstanding ≠ .clear := by decide +kernel

theorem witness_SampleIntake :
    ∀ a ∈ [1, 31], let s := polled a (with_ a (nodeAs .probe (.probe .empty)) part)
      s.time.vdd = true ∧ s.coord.line = .poll a ∧ (s.node a).entry = some ⟨.probe, some 1, 0, false⟩
        ∧ (s.node a).box = .probe .empty
        ∧ (a = 31 → next (.sample 31 0 0 0) s (fun t => t.coord.phase == .idle) = true) := by decide +kernel

theorem witness_DoorIntake :
    ∀ a ∈ [1, 31], let s := polled a (with_ a (nodeAs .door (.door .empty)) part)
      s.time.vdd = true ∧ s.coord.line = .poll a ∧ (s.node a).entry = some ⟨.door, some 1, 0, false⟩
        ∧ (s.node a).box = .door .empty
        ∧ (a = 31 → next (.door 31 0 0) s (fun t => t.coord.phase == .idle) = true) := by decide +kernel

theorem witness_UnitIntake :
    ∀ a ∈ [1, 31], let s := polled a (with_ a (nodeAs .unit (.unit .empty)) part)
      s.time.vdd = true ∧ s.coord.line = .poll a ∧ (s.node a).entry = some ⟨.unit, some 1, 0, false⟩
        ∧ (s.node a).box = .unit .empty := by decide +kernel

theorem witness_IdleMisfitStranger :
    ∀ a ∈ [1, 31], let s := polled a (with_ a (scannerAs .empty) part)
      s.time.vdd = true ∧ s.coord.line = .poll a ∧ (s.node a).entry = some ⟨.scanner, none, 0, false⟩
        ∧ Role.scanner.fits (fieldAnswer 3 [0, 0, 0, 0]) = false
        ∧ ((polled a part).node a).entry = none := by decide +kernel

theorem witness_WindowClosesAndSweepEnds :
    (∀ a ∈ [1, 31], (polled a part).coord.line = .poll a ∧ ((polled a part).node a).entry = none
      ∧ ((polled a (with_ a (scannerAs .empty) part)).node a).entry = some ⟨.scanner, none, 0, false⟩)
    ∧ (let s := polled 31 State.reset
      s.coord.owed = false ∧ s.coord.answers = [] ∧ next .answerWindowClose s (fun t => t.time.mode == s.time.mode) = true)
    ∧ (let s := polled 31 { part with coord := { part.coord with owed := true } }
      s.coord.line = .poll 31 ∧ s.coord.owed = true) := by decide +kernel

theorem witness_SweepTimerExpires :
    let s := at_ 60 part
    let idle := { s with coord := { s.coord with phase := .idle, line := .free } }
    s.coord.timer = some 60 ∧ s.time.now = 60 ∧ s.coord.phase = .sweeping
      ∧ idle.coord.timer = some 60 ∧ idle.coord.phase = .idle ∧ idle.coord.line = .free ∧ idle.coord.answers = [] := by
  decide +kernel

theorem witness_ScanAnswerSentGrants :
    let r : ScanReply := ⟨1, .notHeld⟩
    let s := { with_ 31 (scannerAs .empty) part with coord := { (with_ 31 (scannerAs .empty) part).coord with line := .sending 1 r } }
    let one := { s with coord := { s.coord with answers := [(31, r)] } }
    let silent := one.setNode 31 { scannerAs .empty with liveness := .silent }
    s.coord.line = .sending 1 r ∧ s.coord.answers = [] ∧ one.coord.line = .sending 1 r ∧ one.coord.answers = [(31, r)]
      ∧ (one.node 31).liveness ≠ .silent ∧ silent.coord.answers = [(31, r)] ∧ (silent.node 31).liveness = .silent := by
  decide +kernel

/-- A committed lot stands in the way; a held one is released; three probes fill zone 1. -/
theorem witness_LoadNodeAnswered :
    let commit : CommitField := ⟨1, false, 0⟩
    let busy := closingPart commit lotOne
    let full := with_ 1 (nodeAs .probe (.probe .empty)) (with_ 2 (nodeAs .probe (.probe .empty))
      (with_ 31 (nodeAs .probe (.probe .empty)) part))
    (busy.node 7).scanner = some ⟨some 0, none, some ⟨500101, none, none, none, false⟩⟩
      ∧ busy.token 0 = some { use7 with expiry := none, commit := some commit } ∧ (busy.lot 0).state = .closing
      ∧ (heldPart.node 7).scanner = some ⟨some 0, none, none⟩ ∧ heldPart.token 0 = some use7 ∧ (heldPart.lot 0).state = .held
      ∧ ((full.nodesOf .probe 1).filter (fun b => b != 4)).length = 3
      ∧ ((full.nodesOf .probe 1).filter (fun b => b != 31)).length = 2
      ∧ ((part.node 1).scanner = none ∧ (part.node 31).scanner = none) := by decide +kernel

/-- The values of the probes of a zone that qualify, as a list. -/
def qualifying (s : State) (z : Nat) : List Int :=
  addresses.filterMap (fun a => match (s.node a).entry, (s.node a).box with
    | some e, .probe b => if e.role = .probe ∧ e.zone = some z ∧ b.fresh = true ∧ b.fault = false ∧ b.stale = false
      then b.value else none
    | _, _ => none)

theorem qualifying_of_Qualifies {s : State} {z : Nat} {v : Int} (h : Qualifies s z v) : v ∈ qualifying s z := by
  obtain ⟨a, e, b, h1, h31, he, hr, hz, hb, hf, hfa, hs, hv⟩ := h
  have ha : ∀ a, a < 32 → 1 ≤ a → a ∈ addresses := by decide
  refine List.mem_filterMap.2 ⟨a, ha a (by omega) h1, ?_⟩
  simp [he, hb, hr, hz, hf, hfa, hs, hv]

/-- Zone 1 after probes at 1 and 31 have answered 100 and 96. -/
def twoProbes : State :=
  polled 31 (with_ 1 (nodeAs .probe (.probe ⟨some 100, some 1, true, false, false, 0⟩))
    (with_ 31 (nodeAs .probe (.probe ⟨some 96, some 1, true, false, false, 0⟩)) part))

theorem witness_ZoneAtSweepEnd :
    (twoProbes.time.vdd = true ∧ twoProbes.coord.line = .poll 31 ∧ (twoProbes.zone 1).inService = true)
    ∧ Qualifies twoProbes 1 100 ∧ (∀ v, Qualifies twoProbes 1 v → v ≤ 100) ∧ (∀ v, ¬ Qualifies twoProbes 2 v)
    ∧ (twoProbes.zone 8).inService = false ∧ (twoProbes.zone 8).pending = none := by
  refine ⟨by decide +kernel, ⟨1, ⟨.probe, some 1, 0, false⟩, ⟨some 100, some 1, true, false, false, 0⟩, by decide +kernel⟩,
    fun v h => ?_, fun v h => ?_, by decide +kernel⟩
  · have hq : qualifying twoProbes 1 = [100, 96] := by decide +kernel
    have hv := qualifying_of_Qualifies h
    rw [hq] at hv
    simp at hv
    omega
  · have hq : qualifying twoProbes 2 = [] := by decide +kernel
    have hv := qualifying_of_Qualifies h
    rw [hq] at hv
    simp at hv

/-- A door of zone 1 at 5 with the mailbox given, at the sweep end at 20, the open door set holding what is given. -/
def doorSweep (b : DoorBox) (set_ : List Nat) (union : Option Nat) : State :=
  let s := at_ 20 (with_ 5 (nodeAs .door (.door b)) twoProbes)
  { s.setZone 1 { s.zone 1 with openDoors := set_, union := union, doorCount := 10, lastTick := 10 } with
    dose := { s.dose with queue := [⟨0, tickAt 3 3 (.unseen 32)⟩] } }

theorem enrolled_door (b : DoorBox) (l : List Nat) (u : Option Nat) : Enrolled (doorSweep b l u) 1 .door 5 :=
  ⟨by decide, by decide, ⟨.door, some 1, 0, false⟩, rfl, rfl, rfl⟩

theorem doorOf_five (b : DoorBox) (l : List Nat) (u : Option Nat) : DoorOf (doorSweep b l u) 1 5 b := ⟨enrolled_door b l u, rfl⟩

/-- The enrolled doors of zone 1 are those that the node table lists. -/
theorem enrolled_iff (s : State) (z : Nat) (r : Role) (a : Nat) : Enrolled s z r a ↔ a ∈ s.nodesOf r z := by
  have ha : ∀ a, a ∈ addresses ↔ 1 ≤ a ∧ a ≤ 31 := by
    have h : ∀ a, a < 32 → (a ∈ addresses ↔ 1 ≤ a ∧ a ≤ 31) := by decide
    have g : ∀ a ∈ addresses, a < 32 := by decide
    exact fun a => ⟨fun h' => (h a (g a h')).1 h', fun h' => (h a (by omega)).2 h'⟩
  unfold Enrolled State.nodesOf
  rw [List.mem_filter, ha]
  constructor
  · rintro ⟨h1, h31, e, he, hr, hz⟩
    exact ⟨⟨h1, h31⟩, by simp [he, hr, hz]⟩
  · rintro ⟨⟨h1, h31⟩, h⟩
    cases he : (s.node a).entry with
    | none => simp [he] at h
    | some e =>
      simp [he] at h
      exact ⟨h1, h31, e, rfl, h.1, h.2⟩

theorem firstOpened_five : FirstOpened (doorSweep ⟨.opened, some 12, true⟩ [] none) 1 12 := by
  refine ⟨⟨5, _, doorOf_five _ _ _, rfl, rfl, rfl⟩, fun a b h hc ho => ?_⟩
  have ha := (enrolled_iff _ _ _ _).1 h.1
  have hl : (doorSweep ⟨.opened, some 12, true⟩ [] none).nodesOf .door 1 = [5] := by decide +kernel
  rw [hl] at ha
  obtain rfl : a = 5 := by simpa using ha
  obtain rfl : b = ⟨.opened, some 12, true⟩ := by
    simpa using h.2.symm.trans (doorOf_five ⟨.opened, some 12, true⟩ [] none).2
  decide

/-- A door that opens, closes, stays, or is none; a unit with a report of each form, with none, and a zone without a unit. -/
theorem witness_ZoneAtSweepEnd_doors :
    (¬ Enrolled twoProbes 1 .door 5 ∧ ¬ Enrolled twoProbes 1 .unit 6)
    ∧ DoorOf (doorSweep ⟨.opened, some 12, true⟩ [] none) 1 5 ⟨.opened, some 12, true⟩
    ∧ FirstOpened (doorSweep ⟨.opened, some 12, true⟩ [] none) 1 12
    ∧ ((doorSweep ⟨.opened, some 12, true⟩ [] none).zone 1).openDoors = []
    ∧ ((doorSweep ⟨.opened, some 12, true⟩ [] none).zone 1).union = none
    ∧ DoorOf (doorSweep ⟨.closed, some 12, true⟩ [5] (some 4)) 1 5 ⟨.closed, some 12, true⟩
    ∧ DoorOf (doorSweep ⟨.unknown, none, false⟩ [5] (some 4)) 1 5 ⟨.unknown, none, false⟩
    ∧ ((doorSweep ⟨.unknown, none, false⟩ [5] (some 4)).zone 1).openDoors = [5]
    ∧ next .answerWindowClose (doorSweep ⟨.opened, some 12, true⟩ [] none) (fun t => (t.zone 1).openDoors == [5]
        && (t.zone 1).union == some 12 && (t.zone 1).doorCount == 20) = true
    ∧ next .answerWindowClose (doorSweep ⟨.closed, some 12, true⟩ [5] (some 4)) (fun t => (t.zone 1).openDoors == []
        && (t.zone 1).union == none) = true
    ∧ ∀ r ∈ [none, some ⟨true, 9⟩, some ⟨false, 9⟩], UnitOf (with_ 6 (nodeAs .unit (.unit ⟨.ok, r⟩)) twoProbes) 1 6 ⟨.ok, r⟩ := by
  refine ⟨⟨?_, ?_⟩, doorOf_five _ _ _, firstOpened_five, ?_, ?_, doorOf_five _ _ _, doorOf_five _ _ _, ?_, ?_, ?_, ?_⟩
  · rw [enrolled_iff]
    decide +kernel
  · rw [enrolled_iff]
    decide +kernel
  all_goals first | decide +kernel | skip
  intro r _
  refine ⟨⟨by decide, by decide, ⟨.unit, some 1, 0, false⟩, rfl, rfl, rfl⟩, rfl, fun c hc => ?_⟩
  have h := (enrolled_iff _ _ _ _).1 hc
  have hl : (with_ 6 (nodeAs .unit (.unit ⟨.ok, r⟩)) twoProbes).nodesOf .unit 1 = [6] := rfl
  rw [hl] at h
  simpa using h

theorem witness_AlarmKindsAtSweepEnd :
    let warm := twoProbes.setZone 1 { twoProbes.zone 1 with limit := 99 }
    let door := with_ 5 (nodeAs .door (.door ⟨.opened, some 0, true⟩)) twoProbes
    let unit := with_ 6 (nodeAs .unit (.unit ⟨.fault, none⟩)) twoProbes
    next .answerWindowClose warm (fun t => (t.zone 1).latest == some 100 && (t.zone 1).limit == 99
        && (t.zone 1).alarms.tempHigh) = true
    ∧ next .answerWindowClose twoProbes (fun t => (t.zone 1).latest == some 100 && (t.zone 1).state == .watched
        && (t.zone 1).union == none) = true
    ∧ next .answerWindowClose twoProbes (fun t => (t.zone 2).latest == none && (t.zone 2).state == .unseen) = true
    ∧ next .answerWindowClose (twoProbes.setZone 2 { twoProbes.zone 2 with lastValid := some 7 })
        (fun t => (t.zone 2).state == .blind) = true
    ∧ next .answerWindowClose door (fun t => (t.zone 1).union == some 0) = true
    ∧ (unit.nodesOf .unit 1 = [6] ∧ (unit.node 6).box = .unit ⟨.fault, none⟩)
    ∧ next .answerWindowClose unit (fun t => (t.zone 1).alarms.unitFault) = true := by decide +kernel

/-- Zone 1 WATCHED, BLIND and UNSEEN with time gone; a reading pending; a full queue; an empty and a loaded list. -/
theorem witness_TickSubmittedOrHeld :
    let z := part.zone 1
    let watched := part.setZone 1 { z with state := .watched, latest := some 5 }
    let blind := part.setZone 1 { z with state := .blind, lastValid := some 960 }
    let pending := part.setZone 1 { z with pending := some ⟨tickAt 3 3 (.unseen 32), none⟩ }
    let full := { part with dose := { part.dose with
      queue := (numbersFrom 0 16).map (fun n => ⟨n, tickAt 3 3 (.unseen 32)⟩) } }
    let some_ := { part with dose := { part.dose with queue := [⟨0, tickAt 3 3 (.unseen 32)⟩] } }
    ((watched.zone 1).state = .watched ∧ (watched.zone 1).latest = some 5)
    ∧ ((blind.zone 1).state = .blind ∧ (blind.zone 1).lastValid = some 960)
    ∧ (part.zone 1).state = .unseen ∧ (part.zone 1).lastTick = 0
    ∧ (pending.zone 1).pending = some ⟨tickAt 3 3 (.unseen 32), none⟩
    ∧ (part.zone 1).pending = none ∧ full.dose.queue.length = 16 ∧ some_.dose.queue.length = 1
    ∧ part.dose.queue = [] ∧ part.zoneList 1 = [0] ∧ part.zoneList 8 = []
    ∧ ∀ y, y < 9 → (part.zone y).pending = none := by decide +kernel

/-- A sweep end at 20 for zone 1, the others but 2 OUT: no change in the set, the union opening, closing, and its door gone. The
tick goes to the queue of one item or waits behind a pending one; in the same second as the last tick none is formed. -/
theorem witness_TickSubmittedOrHeld_sweep :
    let keeps := doorSweep ⟨.opened, some 4, false⟩ [5] (some 4)
    let opens := doorSweep ⟨.opened, some 12, true⟩ [] none
    let closes := doorSweep ⟨.closed, some 12, true⟩ [5] (some 4)
    let gone := doorSweep ⟨.closed, some 12, true⟩ [9] (some 4)
    let alone := fun (s : State) => s.setZone 2 (s.zone 3)
    let first := fun (s : State) (p : Tick → Bool) => next .answerWindowClose (alone s) (fun t =>
      t.dose.queue.length == 2 && (t.dose.queue.drop 1).any (fun i => p i.tick) && (t.zone 1).lastTick == 20)
    let full := { keeps with dose := { keeps.dose with queue := (numbersFrom 0 16).map (fun n => ⟨n, tickAt 3 3 (.unseen 32)⟩) } }
    let waits := keeps.setZone 1 { keeps.zone 1 with pending := some ⟨tickAt 15 5 (.unseen 32), none⟩ }
    let same := keeps.setZone 1 { keeps.zone 1 with lastTick := 20 }
    (keeps.time.vdd = true ∧ keeps.coord.line = .poll 31 ∧ (keeps.zone 1).inService = true ∧ keeps.dose.queue ≠ []
      ∧ ∀ y, y < 9 → y ≠ 1 → ((alone keeps).zone y).inService = false)
    ∧ first keeps (fun k => k.openSeconds == 10 && k.openings == 0) = true
    ∧ first opens (fun k => k.openSeconds == 8 && k.openings == 1) = true
    ∧ first closes (fun k => k.openSeconds == 2 && k.openings == 0) = true
    ∧ ((gone.zone 1).openDoors = [9] ∧ (gone.zone 1).union = some 4)
    ∧ first gone (fun k => k.openSeconds == 10 && k.openings == 0) = true
    ∧ next .answerWindowClose full (fun t => (t.zone 1).pending.isSome && (t.zone 1).lagged == 1) = true
    ∧ next .answerWindowClose waits (fun t => (t.zone 1).pending.isSome && (t.zone 1).lagged == 1) = true
    ∧ next .answerWindowClose same (fun t => (t.zone 1).openSeconds == 10 && (t.zone 1).lastTick == 20) = true := by decide +kernel

/-- The door that closes is of the zone, the one that is gone is not. -/
theorem witness_TickSubmittedOrHeld_doors :
    DoorOf (doorSweep ⟨.opened, some 4, false⟩ [5] (some 4)) 1 5 ⟨.opened, some 4, false⟩
    ∧ DoorOf (doorSweep ⟨.closed, some 12, true⟩ [5] (some 4)) 1 5 ⟨.closed, some 12, true⟩
    ∧ ¬ Enrolled (doorSweep ⟨.closed, some 12, true⟩ [9] (some 4)) 1 .door 9 := by
  refine ⟨doorOf_five _ _ _, doorOf_five _ _ _, ?_⟩
  rw [enrolled_iff]
  decide +kernel

/-- With forced readings of orders 2 and 5 the lower one is served; with none forced, the next after the pointer. -/
theorem witness_PendingReadingServed :
    let p := fun (z : Nat) (o : Option Nat) => PendingReading.mk { tickAt 3 3 (.unseen 32) with zone := z } o
    let forced := (part.setZone 1 { part.zone 1 with pending := some (p 1 (some 5)) }).setZone 8
      { part.zone 8 with pending := some (p 8 (some 2)) }
    let plain := (part.setZone 1 { part.zone 1 with pending := some (p 1 none) }).setZone 8
      { part.zone 8 with pending := some (p 8 none) }
    ((forced.zone 8).pending = some (p 8 (some 2)) ∧ (p 8 (some 2)).tick.zone = 8 ∧ part.dose.roundRobin = 8
      ∧ ∀ y, y < 9 → y ≠ 8 → ((forced.zone y).pending.all fun q => q.forced.all fun o' => decide (2 < o')) = true)
    ∧ ((plain.zone 1).pending = some (p 1 none)
      ∧ (∀ y, y < 9 → ((plain.zone y).pending.all fun q => q.forced == none) = true)
      ∧ ∀ y, y < 9 → 1 ≤ y → y ≠ 1 → (plain.zone y).pending ≠ none →
        (1 + 15 - plain.dose.roundRobin) % 8 < (y + 15 - plain.dose.roundRobin) % 8) := by decide +kernel

/-- Item 7 was the last lot's; zone 8's reading takes its place behind item 8 of zone 2, or alone, zone 8 holding lot 63. -/
theorem witness_PendingReadingServed_retire :
    let tick := tickAt 9 5 (.watched 0)
    let p : PendingReading := ⟨{ tick with zone := 8 }, some 0⟩
    let s := walking [⟨7, tick⟩] (lotIs { lotOne with lastApplied := some 7 }
      ((part.setLot 63 { lotOne with zone := 8 }).setZoneList 8 [63]))
    let s := { s.setZone 8 { s.zone 8 with pending := some p } with fences := [⟨.move 0, 0, 8, none, true⟩] }
    (s.dose.queue = ⟨7, tick⟩ :: [] ∧ s.dose.cursor = some 0 ∧ s.zoneList 1 = [] ++ [0] ∧ (s.lot 0).lastApplied = some 7
      ∧ s.zoneList 8 = 63 :: [] ∧ (s.zone 8).pending = some p ∧ s.dose.roundRobin = 8
      ∧ ∀ y, y < 8 → (s.zone y).pending = none)
    ∧ next .itemApplication s (fun t => t.dose.queue == [⟨0, p.tick⟩] && t.dose.cursor == some 63 && t.dose.roundRobin == 8
      && t.fences == [⟨.move 0, 0, 8, some 0, false⟩]) = true := by decide +kernel

/-- A pacing expiry at its second and after it, the first and the last zone; the ALARM carries the expiry time (R40). -/
theorem witness_AlarmNoticesSent :
    ∀ z ∈ [1, 8], ∀ now ∈ [60, 75], let s := at_ now (part.setZone z { part.zone z with pacing := some 60, noticePending := true })
      s.time.vdd = true ∧ (s.zone z).pacing = some 60 ∧ 60 ≤ s.time.now ∧ (s.zone z).noticePending = true
      ∧ next (.pacingExpiry z) s (fun t => (t.zone z).lastNotice == some 60
        && t.trunk.sending == (Entry.alarm { s.alarmBody z 60 with time := 60 }).telegrams) = true := by
  decide +kernel

/-- A sweep end at 75 of zone 1 alone, which is too warm: the first notice; the last one 60 s and 59 s old, with the expiry
not armed and armed; and nothing changed. -/
theorem witness_AlarmNoticesSent_sweep :
    let s := at_ 75 (twoProbes.setZone 2 (twoProbes.zone 3))
    let warm := fun (last pacing : Option Nat) (alarms : AlarmSet) =>
      s.setZone 1 { s.zone 1 with limit := 99, lastNotice := last, pacing := pacing, alarms := alarms }
    let sent := fun (s : State) (p : Zone → Bool) => next .answerWindowClose s (fun t => p (t.zone 1))
    (s.coord.line = .poll 31 ∧ ∀ y, y < 9 → y ≠ 1 → (s.zone y).inService = false)
    ∧ sent (warm none none .none) (fun q => q.alarms.tempHigh && q.lastNotice == some 75 && !q.noticePending) = true
    ∧ sent (warm (some 15) none .none) (fun q => q.alarms.tempHigh && q.lastNotice == some 75) = true
    ∧ sent (warm (some 16) none .none) (fun q => q.alarms.tempHigh && q.lastNotice == some 16 && q.noticePending
        && q.pacing == some 76 && q.raisedSince.tempHigh) = true
    ∧ sent (warm (some 16) (some 70) .none) (fun q => q.alarms.tempHigh && q.pacing == some 70) = true
    ∧ sent (warm (some 15) none ⟨true, false, false, false⟩) (fun q => q.alarms == ⟨true, false, false, false⟩
        && q.lastNotice == some 15) = true
    ∧ s.trunk.settings.wakeAlarm = true ∧ (s.zone 1).noticePending = false := by decide +kernel

/-- Zone 1 holds a lot, zone 2 is IN and empty, zone 3 is OUT; a lot moves to zone 4. -/
theorem witness_LoadZoneAnswered :
    let moving := lotIs { lotOne with state := .moving, move := some ⟨4, 0⟩ } part
    let alarmed := fun (last : Option Nat) => part.setZone 2 { part.zone 2 with
      alarms := ⟨false, true, false, false⟩, lastNotice := last }
    let out := Instr.loadZone 5 2 0 0 0
    part.zoneList 1 ≠ [] ∧ (part.zone 1).inService = true ∧ part.zoneList 2 = [] ∧ (part.zone 2).inService = true
      ∧ (part.zone 2).alarms = ⟨false, false, false, false⟩ ∧ (part.zone 3).inService = false
      ∧ (moving.lot 0).state = .moving ∧ (moving.lot 0).move = some ⟨4, 0⟩
      ∧ (∀ e, e < 64 → (part.lot e).state ≠ .moving)
      ∧ ((alarmed none).zone 2).alarms ≠ ⟨false, false, false, false⟩ ∧ ((alarmed (some 0)).zone 2).lastNotice = some 0
      ∧ ¬ part.trunk.settings.pacingInterval ≤ part.time.now - 0
      ∧ next out (alarmed none) (fun t => (t.zone 2).lastNotice == some 0 && (t.zone 2).clearedSince == .none
        && t.trunk.queue.length == 1 && t.trunk.sending.map (fun x => x.kind) == [51]) = true
      ∧ next out (alarmed (some 0)) (fun t => (t.zone 2).pacing == some 60 && (t.zone 2).noticePending
        && (t.zone 2).clearedSince == ⟨false, true, false, false⟩ && t.trunk.sending.map (fun x => x.kind) == [48]) = true := by
  decide +kernel

/-! ## The dose engine -/

theorem witness_DoseRate :
    (let p : Profile := ⟨true, -960, -959, 1, 0, 0, 0⟩;
      (-960) ≤ p.lower ∧ p.lower < p.upper ∧ p.upper ≤ 960 ∧ 1 ≤ p.weight ∧ p.weight ≤ 4)
    ∧ (let p : Profile := ⟨true, 959, 960, 4, 0, 0, 0⟩;
      (-960) ≤ p.lower ∧ p.lower < p.upper ∧ p.upper ≤ 960 ∧ 1 ≤ p.weight ∧ p.weight ≤ 4)
    ∧ 0 < shareOf (tickAt 9 5 (.watched 0)) lotOne.entered := by decide +kernel

theorem witness_ItemCharged :
    let warm := walking [⟨7, tickAt 9 5 (.watched 0)⟩] part
    let cold := walking [⟨7, tickAt 9 5 (.watched (-300))⟩] (lotIs { lotOne with run := some ⟨0, 300, 0⟩ } part)
    let new := walking [⟨7, tickAt 9 5 (.watched 0)⟩] (lotIs { lotOne with entered := 9 } part)
    warm.dose.queue = [⟨7, tickAt 9 5 (.watched 0)⟩] ∧ warm.dose.cursor = some 0 ∧ warm.dose.stalled = false
      ∧ (warm.lot 0).lastApplied ≠ some 7 ∧ (warm.profile 0).lower < 0 ∧ (warm.lot 0).run = none
      ∧ (cold.lot 0).run = some ⟨0, 300, 0⟩ ∧ cold.dose.cursor = some 0
      ∧ min 5 (9 - (new.lot 0).entered) = 0 := by decide +kernel

theorem witness_WalkGoesOn :
    let tick := tickAt 9 5 (.watched 0)
    let last := walking [⟨7, tick⟩, ⟨8, { tick with zone := 2 }⟩] (lotIs { lotOne with lastApplied := some 7 }
      ((part.setLot 63 { lotOne with zone := 2 }).setZoneList 2 [63]))
    let more := walking [⟨7, tick⟩] (part.setZoneList 1 [0, 63])
    (last.zoneList 1 = [] ++ 0 :: [] ∧ (last.lot 0).lastApplied = some 7 ∧ last.zoneList 2 = [63]
      ∧ (∀ z, z < 9 → (last.zone z).pending = none))
    ∧ (more.zoneList 1 = [] ++ 0 :: [63] ∧ (more.lot 0).run = none ∧ more.dose.stalled = false) := by decide +kernel

theorem witness_ExcursionAdmittedOrStalled :
    let s := walking [⟨7, tickAt 5420 60 (.watched (-300))⟩] (lotIs { lotOne with run := some ⟨5000, 301, -60⟩ } part)
    let held := stored { readyStore with hold := true } s
    let eight := lotIs { lotOne with run := some ⟨5000, 901, -60⟩, evidence := [1, 2, 3, 4, 5, 6, 7, 8] } s
    s.dose.queue = [⟨7, tickAt 5420 60 (.watched (-300))⟩] ∧ (s.lot 0).lastApplied ≠ some 7 ∧ (s.lot 0).entered = 0
      ∧ (s.lot 0).run = some ⟨5000, 301, -60⟩ ∧ (-300 : Int) ≤ (s.profile 0).lower ∧ s.store.roomFor 1 = true
      ∧ s.store.nextSeq + s.store.reserved ≤ 4294967294 ∧ held.store.roomFor 1 = false
      ∧ (s.lot 0).evidence.length < 8 ∧ (eight.lot 0).evidence = 1 :: 2 :: [3, 4, 5, 6, 7, 8] := by decide +kernel

/-! ## Holds and handover -/

/-- The part with scanner 7 polled and its record as given. -/
def scanning (r : ScannerRecord) (s : State) : State := polled 7 (with_ 7 (scannerAs r) s)

theorem carries_part : Carries part 500101 0 := by unfold Carries; decide +kernel

theorem scannerPolled_bounds : ScannerPolled (polled 1 (with_ 1 (scannerAs .empty) part)) 1 .empty
    ∧ ScannerPolled (polled 31 (with_ 31 (scannerAs .empty) part)) 31 .empty := by
  refine ⟨⟨?_, ?_, ?_, ?_, ?_, ?_, ⟨.scanner, none, 0, false⟩, ?_, rfl⟩, ⟨?_, ?_, ?_, ?_, ?_, ?_, ⟨.scanner, none, 0, false⟩, ?_, rfl⟩⟩
    <;> decide +kernel

/-- The lot in each state, with its token; a free token, and none. -/
theorem witness_HoldDecided :
    let s := scanning .empty part
    let held := scanning .empty (polled 7 { heldPart with coord := (with_ 9 (scannerAs ⟨some 0, none, none⟩) heldPart).coord })
    let full := { s with hold := { s.hold with tokens := .replicate 4 (some use7) } }
    ScannerPolled s 7 .empty ∧ Carries s 500101 0 ∧ NotOnBoard s 7 ∧ (s.lot 0).state = .resident ∧ s.token 0 = none
    ∧ (∃ u, heldPart.token 0 = some u) ∧ (held.lot 0).state = .held ∧ (held.lot 0).token = some 0 ∧ Carries held 500101 0
    ∧ (∀ j, j < 4 → full.token j ≠ none)
    ∧ ((lotIs { lotOne with state := .closing } s).lot 0).state = .closing
    ∧ ((lotIs { lotOne with state := .moving } s).lot 0).state = .moving := by
  refine ⟨⟨?_, ?_, ?_, ?_, ?_, ?_, ⟨.scanner, none, 0, false⟩, ?_, rfl⟩, ?_, ?_, ?_, ?_, ⟨use7, ?_⟩, ?_⟩
  all_goals first | decide +kernel | (unfold Carries; decide +kernel) | (unfold NotOnBoard; decide +kernel)

theorem witness_ReleaseDecided :
    let s := polled 7 heldPart
    let closing := polled 7 (closingPart ⟨1, false, 0⟩ lotOne)
    ScannerPolled s 7 ⟨some 0, none, none⟩ ∧ s.token 0 = some use7 ∧ use7.id = 500101 ∧ (s.lot 0).state = .held
    ∧ use7.id ≠ 500102
    ∧ ScannerPolled closing 7 ⟨some 0, none, some ⟨500101, none, none, none, false⟩⟩ ∧ (closing.lot 0).state = .closing
    ∧ closing.token 0 = some { use7 with expiry := none, commit := some ⟨1, false, 0⟩ } := by
  refine ⟨⟨?_, ?_, ?_, ?_, ?_, ?_, ⟨.scanner, none, 0, false⟩, ?_, rfl⟩, ?_, ?_, ?_, ?_,
    ⟨?_, ?_, ?_, ?_, ?_, ?_, ⟨.scanner, none, 0, false⟩, ?_, rfl⟩, ?_, ?_⟩ <;> decide +kernel

theorem witness_HoldExpires :
    (let s := at_ 130 heldPart;
      s.time.vdd = true ∧ s.token 0 = some use7 ∧ use7.expiry = some 130 ∧ s.time.now = 130 ∧ use7.entry < 64
        ∧ (s.node 7).scanner = some ⟨some 0, none, none⟩)
    ∧ (at_ 129 heldPart).time.now < 130
    ∧ (closingPart ⟨1, false, 0⟩ lotOne).token 0 = some { use7 with expiry := none, commit := some ⟨1, false, 0⟩ } := by
  decide +kernel

/-- A held lot with an item of its zone queued behind another, and a reading pending in its zone. -/
theorem witness_CommitAccepted :
    let s := polled 7 { heldPart with dose := { heldPart.dose with
      queue := [⟨5, { tickAt 3 3 (.unseen 32) with zone := 2 }⟩, ⟨6, tickAt 3 3 (.unseen 32)⟩] } }
    let pending := s.setZone 1 { s.zone 1 with pending := some ⟨tickAt 9 3 (.unseen 32), none⟩ }
    ScannerPolled s 7 ⟨some 0, none, none⟩ ∧ s.token 0 = some use7 ∧ (s.lot 0).state = .held
    ∧ s.store.nextSeq + s.store.reserved + 3 ≤ 4294967295 ∧ s.store.roomFor 3 = true
    ∧ s.dose.queue = [⟨5, { tickAt 3 3 (.unseen 32) with zone := 2 }⟩] ++ ⟨6, tickAt 3 3 (.unseen 32)⟩ :: []
    ∧ (s.lot 0).zone = 1 ∧ (s.zone 1).pending = none
    ∧ (pending.zone 1).pending = some ⟨tickAt 9 3 (.unseen 32), none⟩ := by
  refine ⟨⟨?_, ?_, ?_, ?_, ?_, ?_, ⟨.scanner, none, 0, false⟩, ?_, rfl⟩, ?_, ?_, ?_, ?_, ?_, ?_, ?_, ?_⟩ <;> decide +kernel

theorem witness_CommitRefused :
    let s := scanning ⟨none, some 500101, none⟩ part
    let held := polled 7 heldPart
    let busy := stored { readyStore with hold := true } held
    ScannerPolled s 7 ⟨none, some 500101, none⟩ ∧ ScannerPolled held 7 ⟨some 0, none, none⟩
    ∧ held.token 0 = some use7 ∧ use7.id = 500101 ∧ use7.id ≠ 7 ∧ busy.token 0 = some use7
    ∧ busy.store.nextSeq + busy.store.reserved + 3 ≤ 4294967295 ∧ busy.store.roomFor 3 = false := by
  refine ⟨⟨?_, ?_, ?_, ?_, ?_, ?_, ⟨.scanner, none, 0, false⟩, ?_, rfl⟩,
    ⟨?_, ?_, ?_, ?_, ?_, ?_, ⟨.scanner, none, 0, false⟩, ?_, rfl⟩, ?_⟩ <;> decide +kernel

/-- Scanner 7 repeats its commit: answered, recorded, waiting, and after a warm restart. -/
theorem witness_CommitRepeated :
    let c : LastCommit := ⟨500101, none, none, none, false⟩
    let waiting := polled 7 (closingPart ⟨1, false, 0⟩ lotOne)
    ScannerPolled (scanning ⟨none, none, some { c with answer := some .late }⟩ part) 7
      ⟨none, none, some { c with answer := some .late }⟩
    ∧ ScannerPolled (scanning ⟨none, none, some { c with seq := some 4 }⟩ part) 7 ⟨none, none, some { c with seq := some 4 }⟩
    ∧ ScannerPolled (scanning ⟨none, none, some c⟩ part) 7 ⟨none, none, some c⟩
    ∧ ScannerPolled waiting 7 ⟨some 0, none, some c⟩ ∧ (waiting.lot 0).state = .closing ∧ (waiting.lot 0).state ≠ .held
    ∧ waiting.token 0 = some { use7 with expiry := none, commit := some ⟨1, false, 0⟩ } := by
  refine ⟨⟨?_, ?_, ?_, ?_, ?_, ?_, ⟨.scanner, none, 0, false⟩, ?_, rfl⟩,
    ⟨?_, ?_, ?_, ?_, ?_, ?_, ⟨.scanner, none, 0, false⟩, ?_, rfl⟩,
    ⟨?_, ?_, ?_, ?_, ?_, ?_, ⟨.scanner, none, 0, false⟩, ?_, rfl⟩,
    ⟨?_, ?_, ?_, ?_, ?_, ?_, ⟨.scanner, none, 0, false⟩, ?_, rfl⟩, ?_⟩ <;> decide +kernel

/-- What `closingPart` gives a closing: its fence is clear and the store admits. -/
theorem closingReady (c : CommitField) (l : Lot) :
    ClosingReady (closingPart c l) 0 { use7 with expiry := none, commit := some c } c :=
  ⟨rfl, by decide, rfl, rfl, show 0 < 64 by decide, show 1 ≤ 7 by decide, show 7 ≤ 31 by decide,
    ⟨⟨.commit 0, 0, 1, none, false⟩, rfl, rfl, rfl⟩, show StoreStatus.ready ≠ .locate by decide, rfl⟩

theorem witness_ClosingAccepts :
    let c : CommitField := ⟨1, false, 0⟩
    let s := closingPart c lotOne
    ClosingReady s 0 { use7 with expiry := none, commit := some c } c ∧ c.refuse = false ∧ ¬ DoseDue s (s.lot 0)
    ∧ (s.lot 0).marks.melted = false ∧ (s.lot 0).marks.gap = false ∧ (s.lot 0).run = none ∧ s.store.status ≠ .degraded
    ∧ s.store.queue = [] ∧ s.store.fill = some ⟨0, [], none, false⟩
    ∧ (s.node 7).scanner = some ⟨some 0, none, some ⟨500101, none, none, none, false⟩⟩ := by
  refine ⟨closingReady _ _, rfl, ?_, ?_⟩
  · unfold DoseDue
    decide +kernel
  · decide +kernel

/-- Closings of an accepted lot with an EXCURSION record, the evidence list short and full, and with a claim that opens. -/
theorem witness_ClosingAccepts_records :
    let c : CommitField := ⟨1, false, 0⟩
    let run : Option Run := some ⟨5000, 301, -60⟩
    let s := closingPart c { lotOne with run := run }
    let full := closingPart c { lotOne with run := run, evidence := [1, 2, 3, 4, 5, 6, 7, 8] }
    let melted := closingPart c { lotOne with dose := 28800, marks := { Marks.none with melted := true } }
    let eight := closingPart c { lotOne with marks := { Marks.none with gap := true }, evidence := [1, 2, 3, 4, 5, 6, 7, 8] }
    (∀ l, ClosingReady (closingPart c l) 0 { use7 with expiry := none, commit := some c } c)
    ∧ ¬ DoseDue s (s.lot 0) ∧ DoseDue melted (melted.lot 0)
    ∧ (s.lot 0).run = some ⟨5000, 301, -60⟩ ∧ (full.lot 0).evidence.length = 8 ∧ (melted.lot 0).marks.melted = true
    ∧ use7.id = (melted.lot 0).id ∧ (melted.lot 0).evidence.length < 8 ∧ melted.claims.rebuild = .no
    ∧ melted.claims.claims = [] ∧ melted.claims.nextNumber ≠ 0 ∧ melted.store.reads = []
    ∧ (eight.lot 0).marks.gap = true ∧ (eight.lot 0).evidence = 1 :: 2 :: [3, 4, 5, 6, 7, 8]
    ∧ (∀ x ∈ [s, full], next (.closingEvent 0) x (fun t => t.store.status == .ready && t.store.nextSeq == 3
      && t.store.buffered.map (fun r => r.kind) == [4, 5] && (t.lot 0).state == .free && t.claims.claims == []) = true)
    ∧ next (.closingEvent 0) melted (fun t => t.store.buffered.map (fun r => r.kind) == [5, 6]
      && t.claims.claims.map (fun q => (q.reasons, q.evidence)) == [(⟨true, true, false, false, false⟩, [⟨1, 1⟩, ⟨1, 1⟩])]
      && (t.lot 0).state == .free && t.trunk.sending.map (fun x => x.kind) == [52]
      && (t.scannerRecord 7).map (fun r => r.lastCommit.map (fun q => (q.seq, q.figures)))
        == some (some (some 1, some ⟨30, some 1, false⟩))) = true := by
  refine ⟨closingReady _, ?_, ?_, ?_⟩
  · unfold DoseDue
    decide +kernel
  · unfold DoseDue
    decide +kernel
  · decide +kernel

/-- A claim of the consignment. -/
def claimNine : Claim := ⟨9, false, ⟨false, false, false, true, false⟩, 500101, [⟨1, 1⟩], [⟨2, 2⟩], 5, 0, false⟩

/-- A run above 300 s with a claim due: the three admissions reserved are all used, the claim opened, added to or dropped. -/
theorem witness_Closing_long_run :
    let c : CommitField := ⟨1, true, 4⟩
    let long := { lotOne with run := some ⟨5000, 901, -60⟩, evidence := [1, 2, 3, 4, 5, 6, 7, 8], dose := 28800 }
    let accepted := closingPart { c with refuse := false } long
    let refused := closingPart c long
    let open_ := { refused with claims := { refused.claims with claims := [claimNine] } }
    let full := { refused with claims := { refused.claims with claims := List.replicate 32 { claimNine with id := 3 } } }
    let ends (kinds : List Nat) (t : State) : Bool :=
      t.store.status == .ready && t.store.buffered.map (fun r => r.kind) == kinds && t.store.reserved == 0
    DoseDue accepted (accepted.lot 0) ∧ excursionDue (accepted.lot 0) ≠ [] ∧ use7.id = (accepted.lot 0).id
    ∧ (accepted.lot 0).zone = 1 ∧ accepted.claims.rebuild = .no ∧ accepted.claims.claims = [] ∧ accepted.store.reserved = 3
    ∧ next (.closingEvent 0) accepted (fun t => ends [4, 5, 6] t && (t.lot 0).state == .free
      && t.claims.claims.map (fun q => q.evidence.map (fun x => x.current)) == [[1, 4, 5, 6, 7, 8, 1, 2]]) = true
    ∧ next (.closingEvent 0) refused (fun t => ends [4, 5, 6] t && (t.lot 0).evidence == [1, 4, 5, 6, 7, 8, 1, 2]
      && (t.lot 0).bands.b4 == 1 && (t.lot 0).state == .resident) = true
    ∧ next (.closingEvent 0) open_ (fun t => ends [4, 5, 7] t && (t.lot 0).claim == some 9) = true
    ∧ next (.closingEvent 0) full (fun t => ends [4, 5] t && t.claims.dropped == 1) = true := by
  refine ⟨?_, ?_⟩
  · unfold DoseDue
    decide +kernel
  · decide +kernel

theorem witness_ClosingReturns :
    let c : CommitField := ⟨1, true, 15⟩
    let s := closingPart c { lotOne with dose := 28800, run := some ⟨0, 300, 0⟩ }
    let eight := closingPart c { lotOne with evidence := [1, 2, 3, 4, 5, 6, 7, 8] }
    ClosingReady s 0 { use7 with expiry := none, commit := some c } c ∧ DoseDue s (s.lot 0)
    ∧ (s.lot 0).evidence.length < 8 ∧ use7.id = (s.lot 0).id ∧ (s.lot 0).zone = 1 ∧ s.claims.rebuild = .no
    ∧ s.claims.claims = [] ∧ s.claims.nextNumber ≠ 0 ∧ s.store.reads = []
    ∧ (eight.lot 0).evidence.length = 8 ∧ (eight.lot 0).evidence = 1 :: 2 :: [3, 4, 5, 6, 7, 8]
    ∧ next (.closingEvent 0) eight (fun t => t.store.status == .ready && (t.lot 0).evidence == [1, 3, 4, 5, 6, 7, 8, 1]
      && t.claims.claims.map (fun q => q.evidence.map (fun x => x.current)) == [[1, 3, 4, 5, 6, 7, 8, 1]]
      && (t.lot 0).marks.trimmed) = true := by
  refine ⟨closingReady _ _, ?_, ?_⟩
  · unfold DoseDue
    decide +kernel
  · decide +kernel

theorem witness_ClosingAddsOrDropsClaim :
    let c : CommitField := ⟨1, true, 4⟩
    let s := closingPart c lotOne
    let open_ := { s with claims := { s.claims with claims := [claimNine] } }
    let other := { s with claims := { s.claims with claims := List.replicate 32 { claimNine with id := 3 } } }
    ClosingReady open_ 0 { use7 with expiry := none, commit := some c } c ∧ c.refuse = true ∧ open_.claims.rebuild = .no
    ∧ open_.claims.claims = [] ++ claimNine :: [] ∧ claimNine.id = use7.id
    ∧ (∀ q ∈ other.claims.claims, q.id ≠ use7.id) ∧ other.claims.claims.length = 32 ∧ s.store.reads = []
    ∧ next (.closingEvent 0) open_ (fun t => t.store.status == .ready
      && t.trunk.sending.map (fun x => x.kind) == [52]) = true
    ∧ next (.closingEvent 0) other (fun t => t.store.status == .ready
      && t.trunk.sending.map (fun x => x.kind) == [52]) = true
    ∧ ({ s with claims := ClaimTable.initial } : State).claims.rebuild ≠ .no := by
  refine ⟨⟨rfl, by decide, rfl, rfl, by decide, by decide, by decide, ⟨⟨.commit 0, 0, 1, none, false⟩, rfl, rfl, rfl⟩,
    by decide +kernel, by decide +kernel⟩, ?_⟩
  decide +kernel

/-! ## Lots -/

theorem witness_LoadProfileAnswered :
    (8#8).toNat = 8 ∧ (7#8).toNat ≤ 7 ∧ max (-960) (min 960 (BitVec.ofInt 16 (-288)).toInt) < max (-960) (min 960 (2#16).toInt)
    ∧ max (-960) (min 960 (1000#16).toInt) ≤ max (-960) (min 960 (2000#16).toInt) := by decide

/-- A declaration entry for zone 1 under profile 0. -/
def entryOne : DeclEntry := ⟨1, 600001, 0, 40, 0, 0, 0, false, none⟩

theorem witness_DeclareBadPart :
    part.pool.assembly = none
    ∧ ({ part.pool with assembly := some ⟨3, [entryOne], false⟩ } : Pool).assembly = some ⟨3, [entryOne], false⟩
    ∧ [entryOne].length + 1 ≠ 3 := by decide +kernel

/-- The first of two parts, the second of three; a complete declaration that fails each check in turn. -/
theorem witness_DeclarePartTakenOrRefused :
    let two := { part with pool := { part.pool with assembly := some ⟨3, [entryOne], false⟩ } }
    let last := { part with pool := { part.pool with assembly := some ⟨2, [entryOne], false⟩ } }
    two.pool.assembly = some ⟨3, [entryOne], false⟩ ∧ last.pool.assembly = some ⟨2, [entryOne], false⟩
    ∧ [entryOne].length + 1 = 2
    -- out of order, for all that is on board, OUT, not loaded, no room, no admission
    ∧ ¬ (entryOne.zone.toNat < entryOne.zone.toNat ∨ entryOne.id.toNat < entryOne.id.toNat)
    ∧ NotOnBoard part entryOne.id ∧ ¬ NotOnBoard part 500101
    ∧ (part.zone 1).inService = true ∧ (part.zone 3).inService = false
    ∧ (part.profile 0).loaded = true ∧ (part.profile 1).loaded = false
    ∧ ({ part.pool with free := [] } : Pool).free.length < 1 ∧ part.pool.free.length = 63
    ∧ ({ readyStore with hold := true } : Store).roomFor 1 = false := by
  refine ⟨?_, ?_, ?_, ?_, ?_, ?_, ?_⟩
  all_goals first | decide +kernel | (unfold NotOnBoard; decide +kernel)

/-- One entry, and eight entries, which complete a declaration that is taken. -/
theorem witness_DeclareTaken :
    let eight := (numbersFrom 1 8).map (fun n => { entryOne with id := BitVec.ofNat 40 (600000 + n) })
    let s := { part with pool := { part.pool with assembly := some ⟨8, eight.take 7, false⟩ } }
    s.pool.assembly = some ⟨8, eight.take 7, false⟩ ∧ clampEntry entryOne = entryOne
    ∧ eight.Pairwise (fun a b => a.zone.toNat < b.zone.toNat ∨ a.zone = b.zone ∧ a.id.toNat < b.id.toNat)
    ∧ eight.Pairwise (fun a b => a.id ≠ b.id)
    ∧ (∀ x ∈ eight, (∀ y, y < 64 → ¬ ((s.lot y).state ≠ .free ∧ (s.lot y).id = x.id)) ∧ x.zone = 1 ∧ x.profile = 0)
    ∧ (s.zone 1).inService = true ∧ (s.profile 0).loaded = true ∧ eight.length ≤ s.pool.free.length
    ∧ (s.pool.free.take 8).Nodup ∧ (∀ e ∈ s.pool.free.take 8, e < 64)
    ∧ s.store.nextSeq + s.store.reserved + 8 ≤ 4294967295 ∧ s.store.roomFor 8 = true ∧ s.store.reads = [] := by decide +kernel

/-- The part with lot 0 MOVING to zone 2, its fence clear and an admission reserved. -/
def movingPart : State :=
  { lotIs { lotOne with state := .moving, move := some ⟨2, 9⟩ } part with
    fences := [⟨.move 0, 0, 1, none, false⟩]
    store := { readyStore with reserved := 1 } }

theorem witness_MoveDecidedAndTaken :
    let items := walking [⟨6, tickAt 3 3 (.unseen 32)⟩] part
    let eight := lotIs { lotOne with state := .moving, move := some ⟨2, 9⟩, evidence := [1, 2, 3, 4, 5, 6, 7, 8] } movingPart
    NotOnBoard part 7 ∧ Carries part 500101 0 ∧ (part.lot 0).zone = 1 ∧ (part.zone 2).inService = true
    ∧ (part.zone 3).inService = false ∧ (heldPart.lot 0).state = .held ∧ (movingPart.lot 0).state = .moving
    ∧ part.store.nextSeq + part.store.reserved + 1 ≤ 4294967295 ∧ part.store.roomFor 1 = true
    ∧ ({ readyStore with hold := true } : Store).roomFor 1 = false
    ∧ items.dose.queue = [] ++ ⟨6, tickAt 3 3 (.unseen 32)⟩ :: []
    ∧ (movingPart.lot 0).move = some ⟨2, 9⟩ ∧ movingPart.fenceOf (.move 0) = some ⟨.move 0, 0, 1, none, false⟩
    ∧ movingPart.store.status ≠ .locate ∧ movingPart.store.hold = false ∧ (movingPart.lot 0).evidence.length < 8
    ∧ (eight.lot 0).evidence = 1 :: 2 :: [3, 4, 5, 6, 7, 8] ∧ movingPart.dose.cursor ≠ some 0 := by
  refine ⟨?_, carries_part, ?_⟩
  all_goals first | decide +kernel | (unfold NotOnBoard; decide +kernel)

theorem witness_LotQueried :
    NotOnBoard part 7 ∧ Carries part 500101 0 ∧ (part.zoneList 1).length < 2 ∧ part.zoneList 1 = [] ++ 0 :: []
    ∧ (part.lot 0).run = none ∧ (lotIs { lotOne with run := some ⟨1, 2, 3⟩ } part).lot 0 = { lotOne with run := some ⟨1, 2, 3⟩ }
    ∧ (part.lot 0).provenance = none ∧ ({ lotOne with provenance := some ⟨1, 2, 3⟩ } : Lot).provenance = some ⟨1, 2, 3⟩ := by
  refine ⟨?_, carries_part, ?_⟩
  all_goals first | decide +kernel | (unfold NotOnBoard; decide +kernel)

/-! ## The custody store -/

theorem witness_RecordMadeAndReadBack :
    ∀ r ∈ [recordNo 1, { recordNo 4294967294 with kind := 1 }, { recordNo 2 with kind := 8, carry := true, origin := 1 }],
      1 ≤ r.kind ∧ r.kind ≤ 8 ∧ 1 ≤ r.seq ∧ r.seq < 4294967295 ∧ r.origin < 4294967296 ∧ r.time < 4294967296
        ∧ r.epoch < 4294967296 ∧ r.partCode < 4294967296 ∧ r.fields.length = 35
        ∧ (if r.carry = true then r.origin < r.seq else r.origin = r.seq) := by decide

/-- A READY store whose page 0 holds record 1, record 2 waiting in the fill page at page 1. -/
def stockedStore : Store :=
  { readyStore with
    mem := memWrite [] 0 (recordNo 1).bytes
    blocks := tabPut readyStore.blocks 0 ⟨false, .head, some 1⟩
    headPage := 1
    fill := some ⟨1, [recordNo 2], some 10, false⟩
    nextSeq := 3 }

theorem witness_FetchAnswered :
    let reading := { stockedStore with flight := some (.read (.fetch 1 7) (some 0)), fetch := some (1, 7) }
    stockedStore.status = .ready ∧ State.reset.store.status = .locate ∧ stockedStore.fetch = none ∧ reading.fetch ≠ none
    ∧ stockedStore.buffered = [] ++ recordNo 2 :: [] ∧ (recordNo 2).seq = 2
    ∧ stockedStore.inHistory 1 = true ∧ stockedStore.inHistory 3 = false ∧ (∀ q ∈ stockedStore.buffered, q.seq ≠ 1)
    ∧ stockedStore.flight = none ∧ stockedStore.program = none ∧ stockedStore.candidate = none ∧ stockedStore.reads = []
    ∧ reading.flight = some (.read (.fetch 1 7) (some 0)) ∧ reading.readRecord (some 0) 1 = some (recordNo 1)
    ∧ reading.readRecord (some 0) 2 = none ∧ reading.readRecord none 1 = none := by
  decide +kernel

theorem witness_FlushTimerCloses :
    let s := at_ 10 (stored stockedStore part)
    s.store.fill = some ⟨1, [recordNo 2], some 10, false⟩ ∧ s.time.now = 10 ∧ (at_ 9 s).time.now < 10 ∧ s.store.queue = []
    ∧ ({ stockedStore with status := .rebuild } : Store).status = .rebuild ∧ s.store.hold = false ∧ s.store.status = .ready
    ∧ s.store.program = none ∧ s.store.voiding = false ∧ s.store.closed = none ∧ s.store.candidate = none
    ∧ 3 ≤ s.store.erasedBlocks ∧ s.store.reserved + s.store.carryDue ≤ 8 * s.store.erasedPages ∧ s.store.flight = none
    ∧ next .flushTimerExpiry s (fun t => t.store.status == .ready && t.store.flight == some (.program 1)) = true := by
  decide +kernel

/-- Three ERASED blocks ahead of a head at the last page of its block: the new fill page opens in the next block, and the oldest
HISTORY block becomes the candidate with its one pinned record due (R131, R132). -/
theorem witness_FlushTimerCloses_candidate :
    let st := { readyStore with
      blocks := buildBlocks (fun b => if b = 0 then ⟨false, .head, some 500⟩ else if b ≤ 3 then ⟨false, .erased, none⟩
        else ⟨false, .history, some (5 * b)⟩)
      headPage := 15, fill := some ⟨15, [recordNo 600], some 10, false⟩, nextSeq := 601, pins := [⟨21, 1, 21⟩, ⟨30, 1, 30⟩] }
    let s := at_ 10 (stored st part)
    s.store.erasedBlocks = 3 ∧ s.store.reserved + s.store.carryDue ≤ 8 * s.store.erasedPages ∧ s.store.candidate = none
    ∧ (s.store.block 1).content = .erased ∧ (s.store.block 4).retired = false
    ∧ next .flushTimerExpiry s (fun t => t.store.headPage == 16 && t.store.erasedBlocks == 2
      && (t.store.block 0).content == .history && (t.store.block 4).content == .history && (t.store.block 3).content == .erased
      && t.store.candidate == some 4 && t.store.carryDue == 1) = true := by decide +kernel

/-- A program at the last page of the array; a waiting commit of scanner 7 whose record it holds. -/
theorem witness_ProgramPasses :
    let st := { readyStore with program := some ⟨1023, [recordNo 5]⟩, flight := some (.program 1023) }
    let s := stored st (with_ 7 { scannerAs ⟨none, none, some ⟨500101, some 5, some ⟨0, none, false⟩, none, false⟩⟩ with
      outstanding := .awaited } part)
    s.store.flight = some (.program 1023) ∧ s.store.program = some ⟨1023, [recordNo 5]⟩ ∧ s.store.reads = []
    ∧ (s.node 7).scanner = some ⟨none, none, some ⟨500101, some 5, some ⟨0, none, false⟩, none, false⟩⟩
    ∧ (s.node 7).outstanding = .awaited ∧ (s.node 7).liveness = .present
    ∧ (∀ b, b < 32 → b ≠ 7 → (s.node b).scanner = none)
    ∧ next (.pageProgram true) s (fun t => t.store.status == .ready) = true := by decide +kernel

theorem witness_ArrayOperationEnds :
    let program := { readyStore with program := some ⟨1023, [recordNo 5]⟩, flight := some (.program 1023) }
    let last := { readyStore with flight := some (.erase 63), candidate := some 63, fill := some ⟨0, [recordNo 3], some 9, false⟩ }
    program.flight = some (.program 1023) ∧ program.closed = none
    ∧ last.flight = some (.erase 63) ∧ last.fill = some ⟨0, [recordNo 3], some 9, false⟩ ∧ last.flushMarks = []
    ∧ last.queue = [] ∧ (0 : Nat) / 16 ≠ 63
    ∧ next (.erase true) { stored last part with dose := { part.dose with stalled := true } } (fun t => t.dose.retry) = true := by
  decide +kernel

/-- A failed program leaves 7 usable blocks: the targets move, the store is DEGRADED, its two records go out, and the commit that
waits for one is answered (R129, R130, R112). -/
theorem witness_ArrayOperationEnds_degraded :
    let st := { readyStore with
      blocks := buildBlocks (fun b => if b = 0 then ⟨false, .head, some 5⟩ else if b < 8 then ⟨false, .erased, none⟩
        else ⟨true, .bare, none⟩)
      headPage := 1, program := some ⟨0, [recordNo 5]⟩, fill := some ⟨1, [recordNo 6], none, false⟩, nextSeq := 7
      flight := some (.program 0) }
    let waiting : LastCommit := ⟨500101, some 6, some ⟨0, none, false⟩, none, false⟩
    let s := stored st (with_ 7 { scannerAs ⟨none, none, some waiting⟩ with outstanding := .awaited } part)
    s.store.status = .ready ∧ s.store.usableBlocks = 8 ∧ (s.store.block 0).retired = false ∧ s.store.closed = none
    ∧ s.store.reads = [] ∧ s.store.buffered = [recordNo 5, recordNo 6]
    ∧ (∀ b, b < 32 → b ≠ 7 → (s.node b).scanner = none)
    ∧ next (.pageProgram false) s (fun t => t.store.status == .degraded && t.store.headPage == 17 && t.store.erasedBlocks == 6
      && t.store.buffered.isEmpty
      && (t.node 7).scanner == some ⟨none, none, some { waiting with answer := some (.notStored 6 ⟨0, none, false⟩) }⟩) = true := by
  decide +kernel

/-- The oldest HISTORY block is tested anew as an erase passes (R132, R135). -/
theorem witness_ArrayOperationEnds_candidate :
    let st := { readyStore with
      blocks := buildBlocks (fun b => if b = 0 then ⟨false, .head, some 500⟩ else if b = 1 then ⟨false, .erasing, none⟩
        else ⟨false, .history, some (5 * b)⟩)
      headPage := 3, fill := some ⟨3, [], none, false⟩, candidate := some 1, flight := some (.erase 1), nextSeq := 601
      pins := [⟨11, 1, 11⟩] }
    st.status = .ready ∧ st.queue = [] ∧ st.flushMarks = []
    ∧ next (.erase true) (stored st part) (fun t => t.store.candidate == some 2 && t.store.carryDue == 1
      && (t.store.block 1).content == .erased) = true := by decide +kernel

theorem witness_CarryCopies :
    let read := { stockedStore with flight := some (.read (.carry 1) (some 0)), pins := [⟨1, 1, 1⟩] }
    let held := { stockedStore with carryBuf := some (recordNo 1) }
    let full := { held with reserved := 8 }
    read.flight = some (.read (.carry 1) (some 0)) ∧ 0 < read.pinCount 1 ∧ stockedStore.pinCount 1 = 0
    ∧ held.carryBuf = some (recordNo 1) ∧ held.status = .ready ∧ held.queue.length + held.reserved + 1 ≤ 8
    ∧ held.nextSeq + held.reserved ≤ 4294967294 ∧ 8 < full.queue.length + full.reserved + 1
    ∧ next .carryCopy (stored held part) (fun t => t.store.status == .ready) = true := by decide +kernel

/-- The copy that would take the last number set aside for a reservation is refused, and the store is DEGRADED (R123, R130). -/
theorem witness_CarryCopies_exhausted :
    let st := { stockedStore with carryBuf := some (recordNo 1), nextSeq := 4294967294, reserved := 1 }
    st.status = .ready ∧ st.queue.length + st.reserved + 1 ≤ 8 ∧ 4294967294 < st.nextSeq + st.reserved ∧ st.reads = []
    ∧ next .carryCopy (stored st part) (fun t => t.store.status == .degraded && t.store.carryBuf.isNone) = true := by
  decide +kernel

/-- A carry read that waits for a record which has left history stands in the way of no other (R134, R136). -/
theorem test_carry_asked_past_a_stale_read :
    let st := { readyStore with
      blocks := tabPut (tabPut readyStore.blocks 0 ⟨false, .head, some 10⟩) 60 ⟨false, .history, some 5⟩
      nextSeq := 12, candidate := some 60, pins := [⟨5, 1, 5⟩], carryDue := 1, reads := [.carry 3] }
    st.inHistory 3 = false ∧ (stored st part).settle.store.flight = some (.read (.carry 5) (some 60))
      ∧ (stored st part).settle.store.reads = [] := by decide +kernel

/-- A void program that passes leaves its page void, and the count of programs as it stands (R142). -/
theorem test_void_program_passes :
    let st := { stockedStore with
      program := some ⟨1, [recordNo 2]⟩, voiding := true, flight := some (.void 1), fill := some ⟨2, [], none, false⟩
      headPage := 2 }
    next (.pageProgram true) (stored st part) (fun t => memRead t.store.mem 512 == 0 && memRead t.store.mem 1023 == 0
      && t.store.programs == 0 && t.store.flight == some (.program 2)) = true := by decide +kernel

/-- A blank array after a cold start, and one whose last block begins with record 5 alone. -/
theorem witness_LocateEnds :
    let m := memWrite [] (8192 * 63) (recordNo 5).bytes
    let s := { State.reset with store := { Store.initial with mem := m } }
    s.time.vdd = true ∧ s.store = { Store.initial with mem := m } ∧ s.claims = .initial ∧ s.time.now < 4294967295
    ∧ 1 ≤ s.trunk.settings.flushDelay ∧ State.reset.store = { Store.initial with mem := [] }
    ∧ State.reset.store.status = .locate
    ∧ Slot.ofBytes (slotAt m 63 0) = .record (recordNo 5)
    ∧ (∀ c, c < 63 → Slot.ofBytes (slotAt m c 0) = .erased)
    ∧ (∀ k, k < 128 → 1 ≤ k → Slot.ofBytes (slotAt m 63 k) = .erased) ∧ memWf m = true
    ∧ part.store.status ≠ .locate := by decide +kernel

/-- A head block of three slots in block 63: record 5, a void slot, and record 6 that follows record 5. -/
def walkFirst : Record := recordNo 5
def walkLast : Record := (recordNo 6).chained walkFirst.chain
def walkMem : Mem :=
  memWrite (memWrite (memWrite [] (8192 * 63) walkFirst.bytes) (8192 * 63 + 64) (padTo 64 [])) (8192 * 63 + 128) walkLast.bytes
def walkSlot (k : Nat) : Option Record := if k = 0 then some walkFirst else if k = 2 then some walkLast else none

/-- The same with a slot that fails behind them, a void slot, and another written slot. -/
def tornMem : Mem :=
  memWrite (memWrite (memWrite walkMem (8192 * 63 + 192) [1]) (8192 * 63 + 256) (padTo 64 [])) (8192 * 63 + 320) walkLast.bytes

theorem walk_history (m : Mem) (h : ∀ k, k < 3 → Slot.ofBytes (slotAt m 63 k) = match walkSlot k with
      | some r => .record r
      | none => .void)
    (hf : walkLast.chain = chainCrc walkFirst.chain ((slotAt m 63 2).take 60)) : HistoryUpTo m 63 3 walkSlot walkFirst walkLast where
  anchor := rfl
  holds := h
  follow := by
    intro j k p r hj hk hp hr _
    have : k = 1 ∨ k = 2 := by omega
    rcases this with rfl | rfl
    · simp [walkSlot] at hr
    · have : j = 0 ∨ j = 1 := by omega
      rcases this with rfl | rfl
      · simp only [walkSlot, if_true, Option.some.injEq] at hp hr
        simp only [show (2 : Nat) ≠ 0 by decide, if_false, if_true, Option.some.injEq] at hr
        subst hp hr
        exact ⟨rfl, hf⟩
      · simp [walkSlot] at hp
  newest := ⟨2, by decide, rfl, by omega⟩

theorem witness_LocateEnds_walk :
    HistoryUpTo walkMem 63 3 walkSlot walkFirst walkLast ∧ HistoryUpTo tornMem 63 3 walkSlot walkFirst walkLast
    ∧ HistoryEnds walkMem 63 3 ∧ SlotFails tornMem 63 3 walkLast ∧ (∀ k, k ∈ [3, 5] ↔ TornFrom tornMem 63 3 k) := by
  refine ⟨walk_history _ (by decide +kernel) (by decide +kernel), walk_history _ (by decide +kernel) (by decide +kernel),
    .inr (by decide +kernel), ⟨by decide, .inl (by decide +kernel)⟩, fun k => ?_⟩
  by_cases h : k < 128
  · have : ∀ k, k < 128 → (k ∈ [3, 5] ↔ 3 ≤ k ∧ k < 128 ∧ Slot.ofBytes (slotAt tornMem 63 k) ≠ .erased
        ∧ Slot.ofBytes (slotAt tornMem 63 k) ≠ .void) := by decide +kernel
    exact this k h
  · exact ⟨fun hk => by simp at hk; omega, fun hk => absurd hk.2.1 h⟩

theorem witness_LocateEnds_resumes :
    HeadResumes walkMem 63 1009 ∧ HeadResumes tornMem 63 1009 ∧ FirstErasedAfter tornMem 63 0
    ∧ memWf walkMem = true ∧ memWf tornMem = true ∧ walkLast.seq < 4294967294
    ∧ (∀ c, c < 63 → Slot.ofBytes (slotAt tornMem c 0) = .erased)
    ∧ (let s := { State.reset with store := { Store.initial with mem := tornMem } }
      next (.locateEnd []) s (fun t => t.store.nextSeq == 8 && t.store.torn == 2 && t.store.headPage == 1009
        && slotAt t.store.mem 63 3 == padTo 64 [] && slotAt t.store.mem 63 5 == padTo 64 []) = true) := by
  have erased (m : Mem) (h : memErased m (8192 * 63 + 512) 7680 = true) (a : Nat) (hl : 512 * (16 * 63 + 0) + 512 ≤ a)
      (hu : a < 8192 * 63 + 8192) : memRead m a = 0xFF#8 := memRead_memErased m _ _ a h (by omega) (by omega)
  refine ⟨⟨0, by decide, ⟨8192 * 63, by decide, by decide, by decide +kernel⟩, erased _ (by decide +kernel), rfl⟩,
    ⟨0, by decide, ⟨8192 * 63, by decide, by decide, by decide +kernel⟩, erased _ (by decide +kernel), rfl⟩,
    ⟨1, by decide, by decide, rfl, by decide +kernel, by omega⟩, ?_⟩
  decide +kernel

/-! ## Claims -/

/-- The part with one open claim, number 9, for lot 0. -/
def claimPart : State := { part with claims := { part.claims with claims := [claimNine] } }

theorem witness_RaiseDecided :
    let s := stored stockedStore claimPart
    let manual := { claimNine with reasons := ⟨false, false, false, false, true⟩ }
    let record := { recordNo 2 with fields := idBytes 500101 ++ List.replicate 30 0 }
    let named := stored { stockedStore with fill := some ⟨1, [record], some 10, false⟩ } claimPart
    let eight := { manual with evidence := List.replicate 8 ⟨1, 1⟩ }
    let start := stored { stockedStore with fill := some ⟨1, [{ recordNo 2 with kind := 1 }], some 10, false⟩ } part
    State.reset.claims.rebuild ≠ .no ∧ s.claims.rebuild = .no ∧ NotOnBoard s 7 ∧ Carries s 500101 0
    ∧ ((closingPart ⟨1, false, 0⟩ lotOne).lot 0).state = .closing ∧ (s.lot 0).state ≠ .closing
    ∧ [manual] = [] ++ manual :: [] ∧ manual.id = 500101 ∧ manual.reasons.manual = true
    ∧ (∀ q ∈ part.claims.claims, q.id ≠ 500101) ∧ part.claims.claims.length < 32
    ∧ (List.replicate 32 { claimNine with id := 3 }).length = 32
    ∧ (part.pinAll (part.named (part.lot 0).evidence)).store.roomFor 1 = true
    ∧ (State.pinAll (stored { readyStore with hold := true } part) []).store.roomFor 1 = false
    ∧ part.store.nextSeq + part.store.reserved ≤ 4294967294
    -- naming a record
    ∧ s.claims.raise = none ∧ s.store.inHistory 3 = false ∧ s.store.inHistory 1 = true ∧ (∀ q ∈ s.store.buffered, q.seq ≠ 1)
    ∧ ({ stockedStore with flight := some (.program 0) } : Store).flight ≠ none
    ∧ s.store.buffered = [] ++ recordNo 2 :: [] ∧ (recordNo 2).consignment = some 0 ∧ NotOnBoard part 0
    ∧ start.store.buffered = [] ++ { recordNo 2 with kind := 1 } :: [] ∧ start.store.inHistory 2 = true
    ∧ s.store.candidate = none ∧ s.store.copies = [] ∧ s.store.roomFor 1 = true
    -- an open claim that takes MANUAL, with the record and without, and one that changes nothing
    ∧ claimNine.reasons.manual = false ∧ record.consignment = some 500101 ∧ named.store.inHistory 2 = true
    ∧ named.store.buffered = [] ++ record :: [] ∧ claimNine.evidence.length < 8 ∧ (∀ x ∈ claimNine.evidence, x.origin ≠ record.origin)
    ∧ eight.reasons.manual = true ∧ ¬ eight.evidence.length < 8 ∧ Carries named 500101 0 ∧ (named.lot 0).state ≠ .closing
    ∧ named.store.roomFor 1 = true ∧ ({ named.store with hold := true } : Store).roomFor 1 = false
    ∧ next (.raiseByRecord 4 2) named (fun t => t.store.status == .ready
      && t.claims.claims.map (fun q => q.evidence) == [[⟨1, 1⟩, ⟨2, 2⟩]]) = true := by
  refine ⟨?_, ?_, ?_, ?_, ?_, ?_, ?_, ?_, ?_, ?_, ?_, ?_, ?_, ?_, ?_, ?_, ?_, ?_, ?_, ?_, ?_, ?_, ?_, ?_, ?_, ?_, ?_, ?_, ?_, ?_, ?_, ?_,
    ?_, ?_⟩
  all_goals first | decide +kernel | (unfold NotOnBoard; decide +kernel) | (unfold Carries; decide +kernel)

theorem witness_ClaimReadAndVerdict :
    let seen := { claimNine with seen := true }
    State.reset.claims.rebuild ≠ .no ∧ claimPart.claims.rebuild = .no
    ∧ claimPart.claims.claims = [] ++ claimNine :: [] ∧ claimNine.seen = false ∧ seen.seen = true
    ∧ (∀ q ∈ claimPart.claims.claims, q.number ≠ (8#16).toNat) ∧ claimNine.number = (9#16).toNat
    ∧ claimNine.records = ⟨2, 2⟩ :: [] ∧ Carries claimPart 500101 0 ∧ NotOnBoard claimPart 7
    ∧ claimPart.store.nextSeq + claimPart.store.reserved ≤ 4294967294 ∧ claimPart.store.roomFor 1 = true
    ∧ ({ readyStore with hold := true } : Store).roomFor 1 = false ∧ claimPart.store.reads = []
    ∧ next (.verdict 1 9 1) claimPart (fun t => t.store.status == .ready) = true := by
  refine ⟨?_, ?_, ?_, ?_, ?_, ?_, ?_, ?_, ?_, ?_, ?_⟩
  all_goals first | decide +kernel | (unfold NotOnBoard; decide +kernel) | (unfold Carries; decide +kernel)

/-- A rebuild over pages 0 and 1 of block 0, the reads of its passes and of a RAISE. -/
theorem witness_RebuildReadTaken :
    let st := { stockedStore with
      status := .rebuild, headPage := 2, flight := some (.read (.page 0) (some 0))
      mem := memWrite stockedStore.mem 512 (recordNo 2).bytes }
    let raise := { stockedStore with flight := some (.read (.raise 1 4) (some 0)) }
    let start := { raise with mem := memWrite [] 0 { recordNo 1 with kind := 1 }.bytes }
    st.historyPages = [0, 1] ∧ st.flight = some (.read (.page 0) (some 0)) ∧ 0 + 1 < st.historyPages.length
    ∧ st.historyPages.length ≤ 1 + 1 ∧ st.status = .rebuild ∧ 8 ≤ st.usableBlocks
    ∧ ({ st with blocks := .replicate 64 ⟨true, .bare, none⟩ } : Store).usableBlocks < 8
    ∧ raise.flight = some (.read (.raise 1 4) (some 0)) ∧ raise.readRecord (some 0) 2 = none ∧ raise.reads = []
    ∧ start.readRecord (some 0) 1 = some { recordNo 1 with kind := 1 }
    -- a claim opens on the record read
    ∧ raise.readRecord (some 0) 1 = some (recordNo 1) ∧ (recordNo 1).consignment = some 0
    ∧ (∀ x, x < 64 → ¬ ((part.lot x).state ≠ .free ∧ (part.lot x).id = 0)) ∧ part.claims.claims = []
    ∧ raise.nextSeq + raise.reserved ≤ 4294967294 ∧ raise.candidate = none ∧ raise.copies = [] ∧ raise.roomFor 1 = true
    ∧ next .rebuildRead (stored raise part) (fun t => t.store.status == .ready
      && t.claims.claims.map (fun q => q.evidence) == [[⟨1, 1⟩]]) = true := by decide +kernel

/-- A page that holds a claim record and its CARRY copy: it is noted once, and its claim number is the highest (R160). -/
theorem witness_RebuildReadTaken_noted :
    let opened := { recordNo 2 with kind := 6, fields := padTo 35 (RecordBody.bytes 0 (.claimOpen 9 7 Reasons.none true [1])) }
    let st := { stockedStore with
      status := .rebuild, headPage := 2, flight := some (.read (.page 0) (some 0))
      mem := memWrite [] 0 (opened.bytes ++ { opened with seq := 3, carry := true }.bytes ++ List.replicate 448 0 ++ (recordNo 4).bytes) }
    let s := { stored st part with claims := { ClaimTable.initial with rebuild := .claimPass 0 } }
    s.store.historyPages = [0, 1] ∧ (pageRecords s.store.mem 0).map (fun r => (r.seq, r.origin, r.kind)) = [(2, 2, 6), (3, 2, 6)]
    ∧ next .rebuildRead s (fun t => t.claims.notes.map (fun r => r.seq) == [2] && t.claims.highest == 9) = true := by
  decide +kernel

/-- The rebuild ends with the flush timer expired, one erased page ahead and pinned records in the oldest block: the page
closes first, and the candidate's carry due does not hold it back (R141). -/
theorem witness_RebuildReadTaken_ready :
    let st := { readyStore with
      blocks := buildBlocks (fun b => if b = 0 then ⟨false, .head, some 500⟩ else ⟨false, .history, some (5 * b)⟩)
      status := .rebuild, headPage := 14, fill := some ⟨14, [recordNo 600], some 10, false⟩, nextSeq := 601
      reserved := 8, flight := some (.read (.page 3) (some 0)), pins := (List.range 20).map (fun k => ⟨5 + k, 1, 5⟩) }
    let s := { at_ 10 (stored st part) with claims := { ClaimTable.initial with rebuild := .mappingPass 1 } }
    8 ≤ s.store.usableBlocks ∧ s.store.erasedPages = 1 ∧ s.store.reserved + s.store.carryDue ≤ 8 * s.store.erasedPages
    ∧ s.store.historyPages.length ≤ 1 + 1
    ∧ next .rebuildRead s (fun t => t.store.status == .ready && t.store.program == some ⟨14, [recordNo 600]⟩
      && t.store.candidate == some 1 && t.store.carryDue == 5) = true := by decide +kernel

/-- Records of each claim kind as the passes read them, at the bounds of number, origin and difference; a CLAIM_OPEN, its
CLAIM_ADD and its CLAIM_CLOSE. -/
theorem witness_RebuildReadTaken_notes :
    let note := fun (body : RecordBody) => { recordNo 5 with kind := body.kind, fields := padTo 35 (body.bytes 0) }
    let reasons : Reasons := ⟨true, false, false, true, false⟩
    let opened := note (.claimOpen 65535 7 reasons false [1, 2, 16777217])
    let added := note (.claimAdd 65535 7 ⟨false, true, false, false, false⟩ true true 4294967295)
    let closed := note (.claimClose 65535 7 reasons 3 5)
    (2 - 1 ≤ 16777215 ∧ 16777217 - 2 = 16777215 ∧ opened.kind = 6 ∧ added.kind = 7 ∧ closed.kind = 8)
    ∧ (applyNote [] opened).map (fun q => (q.number, q.id, q.evidence)) = [(65535, 7, [⟨0, 1⟩, ⟨0, 2⟩, ⟨0, 16777217⟩])]
    ∧ (applyNote (applyNote [] opened) added).map (fun q => (q.reasons, q.evidence.length, q.records.length))
      = [(⟨true, true, false, true, false⟩, 4, 2)]
    ∧ applyNote (applyNote [] opened) closed = [] ∧ applyNote (applyNote [] opened) opened = applyNote [] opened := by decide +kernel

/-! ## The trunk link, time and the supplies -/

theorem witness_FramesAndRequestsReadBack :
    (List.replicate 48 (0xC3 : Byte)).length ≤ 48 ∧ requestBody (.get 1 0xC3) = some (1, 33, [0xC3])
    ∧ (Instr.get 1 0xC3).wf = true ∧ requestBody (.identify 0) = some (0, 46, [])
    ∧ (31#8).toNat < 32 ∧ 47 < (48#8).toNat
    ∧ requestBody (.declare 1 1 1 entryOne) = some (1, 37, [1, 1] ++ entryBytes entryOne)
    ∧ ([1, 1] ++ entryBytes entryOne).length = 32 := by decide +kernel

/-- No request of kind IDENTIFY has a body of one byte. -/
theorem witness_no_such_length : ∀ c t b, requestBody c = some (t, 46, b) → b.length ≠ [(0 : Byte)].length := by
  intro c t b h
  cases c <;> simp [requestBody] at h
  case lotQuery sel _ => cases sel <;> simp at h
  case identify => simp [← h.2]

theorem witness_SettingWritten :
    (16#8).toNat = 16 ∧ (0#8).toNat < 1 ∧ 1 < (2#32).toNat ∧ (4294967295#32).toNat = 4294967295
    ∧ part.trunk.settings.depot = false ∧ part.pool.free.length ≠ 64 ∧ State.reset.pool.free.length = 64
    ∧ next (.set 1 12 0) part (fun t => t.time.mode == part.time.mode) = true := by decide +kernel

/-- Ignition on at 3 s and at 5 s after the last sweep start, SWEEPING and IDLE, with the timer armed, not armed, and without a
last sweep start (R3, R193). -/
theorem witness_SettingWritten_timer :
    let on := fun (s : State) (p : Coord → Bool) => next (.set 1 12 1) s (fun t => t.time.mode == .road && p t.coord)
    let idle := fun (s : State) => { s with coord := { s.coord with phase := .idle, line := .free } }
    let bare := { part with coord := { part.coord with timer := none } }
    let new := { part with coord := { part.coord with lastStart := none } }
    part.time.mode = .parked
    ∧ on (at_ 3 part) (fun c => c.timer == some 5 && !c.owed) = true
    ∧ on (at_ 3 (idle part)) (fun c => c.timer == some 5 && c.phase == .idle) = true
    ∧ on (at_ 5 part) (fun c => c.timer == some 10 && c.owed) = true
    ∧ on (at_ 5 (idle part)) (fun c => c.timer == some 10 && c.phase == .sweeping && c.lastStart == some 5) = true
    ∧ on (at_ 3 bare) (fun c => c.timer == some 5) = true
    ∧ on (at_ 3 (idle new)) (fun c => c.lastStart == some 3 && c.phase == .sweeping) = true := by decide +kernel

theorem witness_StatusAnswered :
    (part.node 31).scanner = none ∧ (heldPart.node 7).scanner = some ⟨some 0, none, none⟩ ∧ part.token 3 = none ∧ heldPart.token 0 = some use7
    ∧ part.trunk.pause = none ∧ ({ Trunk.initial with pause := some ⟨3000, 0, 0⟩ } : Trunk).pause = some ⟨3000, 0, 0⟩ := by decide +kernel

/-- Queues of 24 and 23 places, with bulk that gives way and without. -/
theorem witness_EntryOffered :
    let bulk := (numbersFrom 1 12).map (fun n => Entry.record .stored (recordNo n))
    let urgent := (numbersFrom 1 24).map (fun n => Entry.answer (BitVec.ofNat 8 n) 32 .ok [])
    let answer : Entry := .answer 1 32 .ok []
    let copy : Entry := .fieldCopy 1 3 0 []
    placesOf bulk = 24 ∧ placesOf urgent = 24 ∧ answer.urgent = true ∧ copy.urgent = false
    ∧ 24 < placesOf bulk + copy.places ∧ placesOf bulk + answer.places ≤ 24 + bulkPlaces bulk
    ∧ 24 + bulkPlaces urgent < placesOf urgent + answer.places ∧ placesOf [copy] + answer.places ≤ 24 := by decide +kernel

theorem witness_TransmitterChooses :
    let answer : Entry := .answer 1 32 .ok []
    let copy : Entry := .fieldCopy 1 3 0 []
    let alarm : Entry := .alarm (part.alarmBody 1 0)
    answer.isAnswer = true ∧ copy.isAnswer = false ∧ alarm.urgent = true ∧ alarm.isAnswer = false ∧ copy.urgent = false
    ∧ [alarm, answer] = [alarm] ++ answer :: [] ∧ [copy, alarm] = [copy] ++ alarm :: []
    ∧ [copy, copy] = [] ++ copy :: [copy]
    ∧ (Entry.record .stored (recordNo 1)).telegrams.length = 2 := by decide +kernel

theorem witness_WarmRestart :
    let dipped := { heldPart with time := { heldPart.time with vdd := false } }
    (1#8).toNat = 1 ∧ (0#8).toNat ≠ 1 ∧ (3#8).toNat ≠ 2 ∧ dipped.time.vdd = false ∧ dipped.time.retention = true
    ∧ heldPart.trunk.sending = [] ∧ (heldPart.lot 0).state ≠ .free ∧ (heldPart.lot 1).state = .free
    ∧ next (.restartWarm 1 1) heldPart (fun t => t.store.status == .ready) = true := by decide +kernel

/-- A program in flight with a page behind it, a telegram on the line and a pending answer (R21, R142). -/
theorem witness_WarmRestart_store :
    let st := { stockedStore with
      program := some ⟨1, [recordNo 2]⟩, flight := some (.program 1), fill := some ⟨2, [recordNo 3], some 90, false⟩
      headPage := 2, reads := [.carry 1, .fetch 1 4] }
    let s := stored st { part with
      coord := { part.coord with line := .sending 4 ⟨4, .storeBusy⟩, answers := [(5, ⟨4, .storeBusy⟩)] }
      trunk := { part.trunk with sending := Entry.telegrams (.record .stored (recordNo 1)) } }
    s.store.queue = [] ∧ s.store.flushMarks = [] ∧ s.time.now < 90 ∧ s.store.candidate = none ∧ 3 ≤ s.store.erasedBlocks
    ∧ s.store.inHistory 1 = true ∧ s.trunk.sending.length = 2
    ∧ next (.restartWarm 1 1) s (fun t => t.store.flight == some (.void 1) && t.store.reads == [.carry 1]
      && t.coord.line == .sending 4 ⟨4, .storeBusy⟩ && t.coord.answers.isEmpty && t.coord.discarded == 0
      && t.trunk.sending.length == 1) = true := by decide +kernel

/-- An erase in flight, and a carry read, are asked again (R142). -/
theorem witness_WarmRestart_array :
    let erasing := { stockedStore with
      blocks := tabPut stockedStore.blocks 9 ⟨false, .erasing, none⟩, candidate := some 9, flight := some (.erase 9), fill := none }
    let reading := { stockedStore with
      candidate := some 0, pins := [⟨1, 1, 1⟩], carryDue := 1, flight := some (.read (.carry 1) (some 0)), fill := none }
    erasing.program = none ∧ erasing.closed = none ∧ (erasing.block 9).retired = false ∧ erasing.carryDue = 0
    ∧ reading.inHistory 1 = true ∧ (reading.block 0).retired = false
    ∧ next (.restartWarm 1 1) (stored erasing part) (fun t => t.store.flight == some (.erase 9)) = true
    ∧ next (.restartWarm 1 1) (stored reading part) (fun t => t.store.flight == some (.read (.carry 1) (some 0))) = true := by
  decide +kernel

/-- A frame that is being received is dropped and counted by a warm restart, and kept by a field restart (R183). -/
theorem test_frame_being_received :
    let s := { part with trunk := { part.trunk with receiving := true, inboundDrops := 65534 } }
    next (.restartWarm 1 1) s (fun t => t.trunk.inboundDrops == 65535 && !t.trunk.receiving) = true
    ∧ next (.restartField 1 2) s (fun t => t.trunk.inboundDrops == 65534 && t.trunk.receiving) = true := by decide +kernel

theorem witness_DipAndColdStart :
    let dipped := { part with time := { part.time with vdd := false } }
    let lost := { dipped with time := { dipped.time with retention := false } }
    part.time.vdd = true ∧ dipped.time.vdd = false ∧ lost.time.vdd = false ∧ lost.time.retention = false
    ∧ ({ readyStore with flight := some (.program 0) } : Store).flight = some (.program 0)
    ∧ ({ readyStore with flight := some (.erase 63) } : Store).flight = some (.erase 63) ∧ readyStore.flight = none
    ∧ Instr.dip ≠ .partSecondsStep ∧ Instr.dip ≠ .vddRise ∧ Instr.dip ≠ .retentionLoss
    ∧ (Instr.dip ≠ .retentionSupplyLow true ∧ Instr.dip ≠ .retentionSupplyLow false) := by decide +kernel

theorem witness_SecondCounted :
    (at_ 4294967295 part).time.now = 4294967295 ∧ (at_ 4294967294 part).time.now < 4294967295
    ∧ (at_ 4294967294 part).time.now + 1 ≠ part.time.wakeUntil
    ∧ (let s := { part with time := { part.time with now := 9, wakeUntil := 10, mode := .road } };
      s.time.now + 1 = s.time.wakeUntil ∧ next .partSecondsStep s (fun t => t.time.mode == .parked) = true)
    ∧ ({ part.time with vdd := false } : Time).retention = true
    ∧ ({ part.time with vdd := false, retention := false } : Time).retention = false := by decide +kernel

/-! ## Every step -/

/-- The invariants hold at reset and at `part`, which a command leaves in a next state. -/
theorem witness_StepKeepsArrayAndTables :
    (ArrayOk part ∧ TablesOk part) ∧ ∃ t, step { part with pending := [.get 1 1] } = .next t := by
  refine ⟨⟨?_, ?_⟩, _, rfl⟩
  · unfold ArrayOk
    decide +kernel
  · unfold TablesOk
    decide +kernel

/-- The last page and the last block of the array, in flight and waiting; the page behind the last is shut out. -/
theorem witness_StepKeepsArrayAndTables_flight :
    let full := { readyStore with
      headPage := 1023, fill := some ⟨1023, [], none, false⟩, closed := some ⟨1022, [recordNo 2]⟩
      program := some ⟨1021, [recordNo 1]⟩, candidate := some 63, flight := some (.erase 63) }
    FlightOk (stored full part) ∧ FlightOk (stored { full with flight := some (.program 1023) } part)
    ∧ (∃ t, step { stored full part with pending := [.erase true] } = .next t)
    ∧ ¬ FlightOk (stored { full with flight := some (.program 1024) } part) := by
  refine ⟨⟨?_, ?_, ?_, ?_, ?_⟩, ⟨?_, ?_, ?_, ?_, ?_⟩, ⟨_, rfl⟩, fun h => absurd (show 1024 < 1024 from h.2.2.2.2) (by decide)⟩
  all_goals first
    | decide
    | exact fun _ h => by cases h; decide
    | (rintro p (h | h) <;> cases h <;> decide)
    | exact show 63 < 64 by decide
    | exact show 1023 < 1024 by decide

theorem listsOk_heldPart : ListsOk heldPart := by
  refine ⟨by decide +kernel, by decide +kernel, fun e he => ?_, fun z => ?_⟩
  · have h : ∀ e, e < 64 → ((heldPart.lot e).state = .free ↔ e ∈ heldPart.pool.free)
        ∧ ((heldPart.lot e).state ≠ .free → e ∈ heldPart.zoneList (heldPart.lot e).zone)
        ∧ (heldPart.lot e).state ≠ .moving := by decide +kernel
    exact ⟨(h e he).1, (h e he).2.1, fun hm => absurd hm (h e he).2.2⟩
  · have h : ∀ z, z < 9 → (heldPart.zoneList z).Nodup ∧ ∀ e ∈ heldPart.zoneList z,
        (heldPart.lot e).state ≠ .free ∧ (heldPart.lot e).zone = z := by decide +kernel
    by_cases hz : z < 9
    · exact h z hz
    · have h0 : heldPart.zoneList z = [] := by
        have : ¬ (z - 1 < 8) := by omega
        have hz0 : z ≠ 0 := by omega
        simp [State.zoneList, rowGet, tabGet, hz0, this]
      simp [h0]

theorem token_heldPart {k : Nat} {u : TokenUse} (h : heldPart.token k = some u) : k = 0 ∧ u = use7 := by
  have hs : ∀ k, k < 4 → heldPart.token k = if k = 0 then some use7 else none := by decide +kernel
  by_cases hk : k < 4
  · rw [hs k hk] at h
    split at h
    · exact ⟨‹_›, by simpa using h.symm⟩
    · cases h
  · simp [State.token, tabGet, hk] at h

theorem scanner_heldPart {a : Nat} {r : ScannerRecord} (h : (heldPart.node a).scanner = some r) :
    a = 7 ∧ r = ⟨some 0, none, none⟩ := by
  have hs : ∀ a, a < 32 → (heldPart.node a).scanner = if a = 7 then some ⟨some 0, none, none⟩ else none := by decide +kernel
  by_cases ha : a < 32
  · rw [hs a ha] at h
    split at h
    · exact ⟨‹_›, by simpa using h.symm⟩
    · cases h
  · have h0 : a ≠ 0 := by omega
    have h1 : ¬ (a - 1 < 31) := by omega
    simp [State.node, rowGet, tabGet, h0, h1, Node.blank] at h

theorem custodyOk_heldPart : CustodyOk heldPart := by
  refine ⟨listsOk_heldPart, fun a h1 h31 => ?_, fun k u hk => ?_, fun e he hh => ?_, fun a r k hr hk => ?_⟩
  · have h : ∀ a, a < 32 → 1 ≤ a → ((heldPart.node a).scanner.isSome
        = (heldPart.node a).entry.any (fun e => decide (e.role = .scanner))) := by decide +kernel
    have ha := h a (by omega) h1
    rw [← Option.isSome_iff_ne_none, ha, Option.any_eq_true]
    simp
  · obtain ⟨rfl, rfl⟩ := token_heldPart hk
    exact ⟨by decide +kernel, by decide +kernel, ⟨some 0, none, none⟩, by decide +kernel, rfl⟩
  · have h : ∀ e, e < 64 → (heldPart.lot e).state = .held ∨ (heldPart.lot e).state = .closing → e = 0 := by decide +kernel
    obtain rfl := h e he hh
    exact ⟨0, use7, by decide +kernel, rfl⟩
  · obtain ⟨rfl, rfl⟩ := scanner_heldPart hr
    obtain rfl : k = 0 := by simpa using hk.symm
    exact ⟨use7, by decide +kernel, rfl⟩

theorem witness_StepKeepsCustody :
    CustodyOk heldPart ∧ ∃ t, step { heldPart with pending := [.holdExpiry 0] } = .next t :=
  ⟨custodyOk_heldPart, _, rfl⟩

theorem witness_TimeAndSettingsKept : ∃ t, exec .partSecondsStep part = .next t := ⟨_, rfl⟩

theorem witness_DoseNeverFalls :
    (∃ t, exec (.holdExpiry 0) heldPart = .next t) ∧ CustodyOk heldPart ∧ (heldPart.lot 0).state ≠ .free
    ∧ (heldPart.lot 0).dose ≤ 4294967295 ∧ next (.holdExpiry 0) heldPart (fun t => (t.lot 0).state != .free) = true :=
  ⟨⟨_, rfl⟩, custodyOk_heldPart, by decide +kernel, by decide +kernel, by decide +kernel⟩

end Sys2Proof.Tests
end

/-! SUPPORT. The dose rate at a temperature, its slopes and bounds, and the dose that an application leaves (R55, R56). -/

namespace Sys2Proof.Machine

/-! ## The rate (R55) -/

/-- The rate's two terms, as the spec writes them over the integers. -/
theorem rateAt_coe (p : Profile) (t : Int) (hw : 1 ≤ p.weight) :
    (rateAt p t : Int) = max 0 (t - p.lower) + (p.weight - 1) * max 0 (t - p.upper) := by
  have first : ((t - p.lower).toNat : Int) = max 0 (t - p.lower) := by omega
  have second : ((t - p.upper).toNat : Int) = max 0 (t - p.upper) := by omega
  have weight : ((p.weight - 1 : Nat) : Int) = p.weight - 1 := by omega
  rw [rateAt, Int.natCast_add, Int.natCast_mul, first, second, weight]

/-- Up to `H` the weight has no part in the rate. -/
theorem rateAt_of_le_upper {p : Profile} {t : Int} (h : t ≤ p.upper) : rateAt p t = (t - p.lower).toNat := by
  rw [rateAt, Int.toNat_of_nonpos (by omega : t - p.upper ≤ 0), Nat.mul_zero, Nat.add_zero]

theorem rateAt_below_lower {p : Profile} {t : Int} (hlu : p.lower < p.upper) (h : t < p.lower) : rateAt p t = 0 := by
  rw [rateAt_of_le_upper (by omega)]
  omega

theorem rateAt_succ_of_lt_upper {p : Profile} {t : Int} (hl : p.lower ≤ t) (hu : t < p.upper) :
    rateAt p (t + 1) = rateAt p t + 1 := by
  rw [rateAt_of_le_upper (by omega), rateAt_of_le_upper (Int.le_of_lt hu)]
  omega

/-- From `H` on the first term rises by 1 and the second by `W - 1`. -/
theorem rateAt_succ_of_upper_le {p : Profile} {t : Int} (hlu : p.lower < p.upper) (hw : 1 ≤ p.weight)
    (h : p.upper ≤ t) : rateAt p (t + 1) = rateAt p t + p.weight := by
  have first : (t + 1 - p.lower).toNat = (t - p.lower).toNat + 1 := by omega
  have second : (t + 1 - p.upper).toNat = (t - p.upper).toNat + 1 := by omega
  rw [rateAt, rateAt, first, second, Nat.mul_succ]
  omega

/-- `L` is at least -960, so the first term is at most 1920. -/
theorem firstTerm_le {p : Profile} {t : Int} (hl : -960 ≤ p.lower) (ht : t ≤ 960) :
    max 0 (t - p.lower) ≤ 1920 := by
  omega

/-- `H` is above -960 and `W` at most 4, so the second term is at most 3 × 1919. -/
theorem secondTerm_le {p : Profile} {t : Int} (hu : -960 < p.upper) (hw : p.weight ≤ 4) (ht : t ≤ 960) :
    ((p.weight : Int) - 1) * max 0 (t - p.upper) ≤ 5757 :=
  calc ((p.weight : Int) - 1) * max 0 (t - p.upper)
      ≤ 3 * max 0 (t - p.upper) := Int.mul_le_mul_of_nonneg_right (by omega) (Int.le_max_left ..)
    _ ≤ 5757 := by omega

theorem rateAt_le {p : Profile} {t : Int} (hl : -960 ≤ p.lower) (hlu : p.lower < p.upper) (hw : 1 ≤ p.weight)
    (hw4 : p.weight ≤ 4) (ht : t ≤ 960) : rateAt p t ≤ 7677 := by
  have sum := rateAt_coe p t hw
  have first := firstTerm_le hl ht
  have second := secondTerm_le (by omega : -960 < p.upper) hw4 ht
  omega

/-! ## The dose after an application (R56) -/

@[simp] theorem Lot.closeRun_dose (l : Lot) : l.closeRun.1.dose = l.dose := by
  unfold Lot.closeRun
  split <;> rfl

/-- The excursion run has no part in the dose. -/
@[simp] theorem Lot.runAfter_dose (l : Lot) (p : Profile) (time share : Nat) (tt : Int) :
    (l.runAfter p time share tt).1.dose = l.dose := by
  unfold Lot.runAfter
  split
  · rfl
  · exact l.closeRun_dose

/-- A share above zero adds the increment to the dose, up to the greatest value. -/
theorem Lot.charge_dose (l : Lot) (i : DoseItem) (p : Profile) (h : 0 < shareOf i.tick l.entered) :
    (l.charge i p).1.dose = min max32 (l.dose + increment p (effectiveTemp i.tick.kind l.lastTemp)
      (doorTemp (effectiveTemp i.tick.kind l.lastTemp) p.discount) (shareOf i.tick l.entered)
      (doorShareOf i.tick l.entered)) := by
  simp only [Lot.charge, if_neg (Nat.ne_of_gt h), Lot.runAfter_dose]

/-! ## The statement -/

/-- Settles O18: the rate's two terms, bounds and slopes, and the dose that `Lot.charge` leaves, each by its own lemma. -/
theorem doseRate : Obligations.DoseRate := by
  intro p t hl hlu _ hw hw4 _ ht
  refine ⟨rateAt_coe p t hw, rateAt_le hl hlu hw hw4 ht, firstTerm_le hl ht, secondTerm_le (by omega) hw4 ht,
    rateAt_below_lower hlu, rateAt_succ_of_lt_upper, rateAt_succ_of_upper_le hlu hw, fun l i h => ?_⟩
  rw [Lot.charge_dose l i p h, increment, ← Nat.add_assoc]

end Sys2Proof.Machine

/-! SUPPORT. When a DECLARE part joins the assembly, and what the part does when it cannot (R75, R76). -/

namespace Sys2Proof.Machine

/-! ## The assembly of a declaration (R75, R76) -/

/-- Why a part cannot join: its figures are out of range, or it is a later part that does not follow the assembly held. -/
theorem assemble_eq_none_iff (held : Option Assembly) (part count : Nat) (d : DeclEntry) :
    assemble held part count d = none ↔
      (count < 1 ∨ 8 < count ∨ part = 0 ∨ count < part)
      ∨ part ≠ 1 ∧ (held = none ∨ ∃ a, held = some a ∧ (a.count ≠ count ∨ a.entries.length + 1 ≠ part)) := by
  unfold assemble
  by_cases range : count < 1 ∨ 8 < count ∨ part = 0 ∨ count < part
  · rw [if_pos range]
    exact iff_of_true rfl (.inl range)
  rw [if_neg range, or_iff_right range]
  by_cases first : part = 1
  · simp [first]
  rw [if_neg first, and_iff_right first]
  cases held with
  | none => simp
  | some a => simp [Decidable.imp_iff_not_or]

/-- A part that cannot join ends the assembly held, and is BAD_PART. -/
theorem State.declarePart_of_assemble_none {s : State} {part count : Nat} {d : DeclEntry} (tag : Byte)
    (h : assemble s.pool.assembly part count d = none) :
    s.declarePart tag part count d
      = State.answer { s with pool := { s.pool with assembly := none } } tag 37 .badPart [] := by
  rw [State.declarePart, h]

/-- DECLARE while VDD is present. -/
theorem exec_declare_on {s : State} (tag part count : Byte) (d : DeclEntry) (h : s.time.vdd = true) :
    exec (.declare tag part count d) s = .next (s.declarePart tag part.toNat count.toNat d) :=
  whenOn_on s (fun s => s.declarePart tag part.toNat count.toNat d) h

/-! ## The statement -/

/-- Settles O32: the hypothesis is the right side of `assemble_eq_none_iff`, and BAD_PART is all that such a part leads to. -/
theorem declareBadPart : Obligations.DeclareBadPart := by
  intro s tag part count d on cannot
  have not_joined : assemble s.pool.assembly part.toNat count.toNat d = none := by
    rw [assemble_eq_none_iff]
    simpa [BitVec.toNat_eq, or_assoc] using cannot
  refine ⟨_, exec_declare_on tag part count d on, ?_⟩
  rw [State.declarePart_of_assemble_none tag not_joined]
  exact ⟨rfl, rfl⟩

end Sys2Proof.Machine

/-! SUPPORT. A scanner's HOLD or RELEASE in its own poll exchange: the scanner is heard, the hold controller decides, the
answer waits, and the exchange ends (R8, R16 to R18, R4, R99 to R101). -/

namespace Sys2Proof.Machine

/-! ## The searches for a free token and for a consignment (R98, R99) -/

theorem numbersFrom_eq_range' (a n : Nat) : numbersFrom a n = List.range' a n := by
  induction n generalizing a with
  | zero => rfl
  | succ n ih => rw [numbersFrom, ih, List.range'_succ]

theorem State.freeToken_eq_some {s : State} {k : Nat} (lt : k < 4) (free : s.token k = none)
    (lowest : ∀ j, j < k → s.token j ≠ none) : s.freeToken = some k := by
  rw [State.freeToken, tokenNumbers, numbersFrom_eq_range', List.find?_range'_eq_some]
  refine ⟨by simp [free], by simpa using lt, fun j _ lt => ?_⟩
  simpa [Option.isSome_iff_ne_none] using lowest j lt

theorem State.freeToken_eq_none {s : State} (used : ∀ j, j < 4 → s.token j ≠ none) : s.freeToken = none := by
  rw [State.freeToken, List.find?_eq_none]
  intro j mem
  simpa [Option.isSome_iff_ne_none] using used j (mem_numbersFrom mem).2

theorem State.findLot_of_carries {s : State} {id : ConsId} {e : Nat} (h : Carries s id e) : s.findLot id = some e := by
  obtain ⟨lt, only⟩ := h
  rw [State.findLot, entryNumbers, numbersFrom_eq_range', List.find?_range'_eq_some]
  refine ⟨by simpa using (only e lt).2 rfl, by simpa using lt, fun x _ below => ?_⟩
  have other := mt (only x (by omega)).1 (by omega)
  simpa [Decidable.imp_iff_not_or] using other

theorem State.findLot_of_notOnBoard {s : State} {id : ConsId} (h : NotOnBoard s id) : s.findLot id = none := by
  rw [State.findLot, List.find?_eq_none]
  intro x mem
  simpa using h x (mem_numbersFrom mem).2

/-! ## A wake request (R190) -/

@[simp] theorem State.wake_pool (s : State) (w : WakeSource) : (s.wake w).pool = s.pool := by rw [State.wake_frame]
@[simp] theorem State.wake_hold (s : State) (w : WakeSource) : (s.wake w).hold = s.hold := by rw [State.wake_frame]
@[simp] theorem State.wake_node (s : State) (w : WakeSource) (a : Nat) : (s.wake w).node a = s.node a := by
  rw [State.wake_frame]
  rfl
@[simp] theorem State.wake_coord_answers (s : State) (w : WakeSource) :
    (s.wake w).coord.answers = s.coord.answers := by rw [State.wake_frame]

theorem State.wake_of_not_wakes {s : State} {w : WakeSource} (h : s.wakes w = false) : s.wake w = s := by
  simp [State.wake, h]

theorem State.wake_time_of_wakes {s : State} {w : WakeSource} (h : s.wakes w = true) :
    (s.wake w).time = { s.time with
      wakeUntil := max s.time.wakeUntil (min 4294967295 (s.time.now + s.trunk.settings.wakeHold))
      lastWake := some (w, s.time.now), mode := (s.wake w).time.mode, modeChanges := (s.wake w).time.modeChanges } := by
  rw [State.wake, if_pos h, State.decideMode_frame]
  rfl

/-- The time of `t` is that of `s` after a wake request from SCAN, which counts where SCAN is among the wake sources. -/
def ScanWoken (s t : State) : Prop :=
  (s.trunk.settings.wakeScan = true → t.time = { s.time with
    wakeUntil := max s.time.wakeUntil (min 4294967295 (s.time.now + s.trunk.settings.wakeHold))
    lastWake := some (.scan, s.time.now), mode := t.time.mode, modeChanges := t.time.modeChanges })
  ∧ (s.trunk.settings.wakeScan = false → t.time = s.time)

theorem ScanWoken.of_wake {s v t : State} (time : v.time = s.time) (trunk : v.trunk = s.trunk)
    (woken : t.time = (v.wake .scan).time) : ScanWoken s t := by
  have wakes : v.wakes .scan = s.trunk.settings.wakeScan := by rw [← trunk, State.wakes]
  refine ⟨fun on => ?_, fun off => ?_⟩
  · rw [woken, State.wake_time_of_wakes (wakes.trans on), time, trunk]
  · rw [woken, State.wake_of_not_wakes (wakes.trans off), time]

/-! ## An answer to a scanner (R17) -/

theorem State.grantLine_of_poll {s : State} {a : Nat} (h : s.coord.line = .poll a) : s.grantLine = s := by
  simp [State.grantLine, Coord.grant, h]

/-- Within a poll exchange an answer that is awaited joins the pending list, and the line is not granted. -/
theorem State.answerScanner_of_awaited {s : State} {a b : Nat} (r : ScanReply)
    (awaited : (s.node a).outstanding = .awaited) (line : s.coord.line = .poll b) :
    s.answerScanner a r = State.setNode { s with coord := { s.coord with answers := s.coord.answers ++ [(a, r)] } } a
      { s.node a with outstanding := .ready } := by
  simp only [State.answerScanner, awaited]
  exact State.grantLine_of_poll line

@[simp] theorem State.answerScanner_pool (s : State) (a : Nat) (r : ScanReply) : (s.answerScanner a r).pool = s.pool := by
  unfold State.answerScanner
  split <;> rfl
@[simp] theorem State.answerScanner_hold (s : State) (a : Nat) (r : ScanReply) : (s.answerScanner a r).hold = s.hold := by
  unfold State.answerScanner
  split <;> rfl
@[simp] theorem State.answerScanner_time (s : State) (a : Nat) (r : ScanReply) : (s.answerScanner a r).time = s.time := by
  unfold State.answerScanner
  split <;> rfl
@[simp] theorem State.answerScanner_trunk (s : State) (a : Nat) (r : ScanReply) : (s.answerScanner a r).trunk = s.trunk := by
  unfold State.answerScanner
  split <;> rfl

/-! ## An answer is not lost at the end of an exchange (R18)

A grant sends a pending answer or lets it wait, unless its scanner is SILENT; so do a sweep end and a sweep start. -/

theorem State.grantLine_answered {s : State} {a : Nat} {r : ScanReply} (h : ScannerAnswered s a r)
    (heard : (s.node a).liveness = .present) : ScannerAnswered s.grantLine a r := by
  have live : (s.node a).liveness ≠ .silent := by simp [heard]
  unfold ScannerAnswered State.grantLine Coord.grant
  split
  case h_1 free =>
    have waits : (a, r) ∈ s.coord.answers := h.resolve_right (by simp [free])
    exact (Coord.grantOver_keeps _ s.coord a r waits live).symm
  case h_2 => exact h

theorem State.startSweep_answered {s : State} {a : Nat} {r : ScanReply} (h : ScannerAnswered s a r)
    (heard : (s.node a).liveness = .present) : ScannerAnswered s.startSweep a r := by
  obtain ⟨-, swept, -⟩ := (SweepFrame.startSweep s).nodes a
  have live := swept.trans heard
  refine State.grantLine_answered (s := { s with coord := { s.coord with
    phase := .sweeping, nextAddress := 1, lastStart := some s.time.now
    timer := some (addTime s.time.now (s.period s.time.mode))
    nodes := tabMap (fun n => { n with box := n.box.clearMarks }) s.coord.nodes } }) h ?_
  obtain ⟨-, granted, -⟩ := State.grantLine_node _ a
  exact granted.symm.trans live

theorem State.expireAfter_answered {s : State} {a : Nat} {r : ScanReply} (before : Mode) (h : ScannerAnswered s a r)
    (heard : (s.node a).liveness = .present) : ScannerAnswered (State.expireAfter before s) a r := by
  rcases State.expireAfter_cases before s with starts | stays
  · rw [starts]
    exact State.startSweep_answered h heard
  · rwa [stays]

theorem State.conditionZones_answered {s : State} {a : Nat} {r : ScanReply} (h : ScannerAnswered s a r) :
    ScannerAnswered s.conditionZones a r := by
  unfold ScannerAnswered
  rw [(ZoneFrame.conditionZones s).coord]
  exact h

theorem State.endSweep_answered {s : State} {a : Nat} {r : ScanReply} (h : ScannerAnswered s a r)
    (heard : (s.node a).liveness = .present) : ScannerAnswered s.endSweep a r := by
  have idle : ScannerAnswered { s with coord := { s.coord with phase := .idle } } a r := h
  have conditioned := State.conditionZones_answered idle
  obtain ⟨-, liveness, -⟩ := (ZoneFrame.conditionZones { s with coord := { s.coord with phase := .idle } }).nodes a
  have live := liveness.trans heard
  simp only [State.endSweep]
  generalize State.conditionZones { s with coord := { s.coord with phase := .idle } } = u at conditioned live ⊢
  split
  · exact State.startSweep_answered conditioned live
  · obtain ⟨-, expired, -⟩ := (SweepFrame.expireAfter s.time.mode u).nodes a
    exact State.grantLine_answered (State.expireAfter_answered _ conditioned live) (expired.trans live)

theorem State.endExchange_answered {s : State} {a : Nat} {r : ScanReply} (waits : (a, r) ∈ s.coord.answers)
    (heard : (s.node a).liveness = .present) : ScannerAnswered (s.endExchange a) a r := by
  simp only [State.endExchange]
  split
  · exact State.endSweep_answered (.inl waits) heard
  · exact State.grantLine_answered (.inl waits) heard

/-! ## A scanner's turn -/

/-- The part as the request of scanner `a` finds it: the scanner PRESENT, its request outstanding (R8, R16). -/
def State.heard (s : State) (a : Nat) : State :=
  (s.present a).setNode a { (s.present a).node a with outstanding := .awaited }

/-- `w` is `s` within the turn of scanner `a`, whose record is `rec` by then: of the coordinator, only the nodes, the pending
answers and what a wake request moves are other, and of the rest only lots, tokens and time. -/
structure InTurn (s w : State) (a : Nat) (rec : ScannerRecord) : Prop where
  coord : w.coord = { s.coord with
    nodes := w.coord.nodes, answers := w.coord.answers, timer := w.coord.timer, owed := w.coord.owed }
  node : w.node a = { s.node a with
    liveness := .present, miss := 0, scanner := some rec, outstanding := (w.node a).outstanding }
  others : ∀ b, b ≠ a → w.node b = s.node b
  rest : w = { s with coord := w.coord, pool := w.pool, hold := w.hold, time := w.time }

/-- `t` is `w` with the turn of scanner `a` ended, the answer `reply` waiting or on the line (R4, R17, R18). -/
structure TurnEnded (s w t : State) (a : Nat) (rec : ScannerRecord) (reply : ScanReply) : Prop where
  pool : t.pool = w.pool
  hold : t.hold = w.hold
  store : t.store = s.store
  claims : t.claims = s.claims
  scanner : (t.node a).scanner = some rec
  answered : ScannerAnswered t a reply
  turn : a < 31 → ScannerTurn s t a
  rest : a < 31 → t = { s with coord := t.coord, pool := t.pool, hold := t.hold, time := t.time }

theorem TurnEnded.token {s w t : State} {a : Nat} {rec : ScannerRecord} {reply : ScanReply}
    (h : TurnEnded s w t a rec reply) (k : Nat) : t.token k = w.token k := by
  rw [State.token, h.hold, State.token]

theorem TurnEnded.lot {s w t : State} {a : Nat} {rec : ScannerRecord} {reply : ScanReply}
    (h : TurnEnded s w t a rec reply) (e : Nat) : t.lot e = w.lot e := by
  rw [State.lot, h.pool, State.lot]

theorem State.range_of_polled {s : State} {a : Nat} {r : ScannerRecord} (h : ScannerPolled s a r) : 1 ≤ a ∧ a ≤ 31 :=
  let ⟨_, ge, le, _⟩ := h
  ⟨ge, le⟩

theorem State.node_heard {s : State} {a : Nat} (ge : 1 ≤ a) (le : a ≤ 31) :
    (s.heard a).node a = { s.node a with liveness := .present, miss := 0, outstanding := .awaited } := by
  simp [State.heard, State.present, ge, le]

theorem State.node_heard_other {s : State} {a b : Nat} (ne : b ≠ a) : (s.heard a).node b = s.node b := by
  simp [State.heard, State.present, ne.symm]

theorem InTurn.heard {s : State} {a : Nat} {r : ScannerRecord} (h : ScannerPolled s a r) : InTurn s (s.heard a) a r := by
  obtain ⟨-, ge, le, -, -, scanner, -⟩ := h
  refine ⟨rfl, ?_, fun b => State.node_heard_other, rfl⟩
  rw [State.node_heard ge le, ← scanner]

/-- Within the turn the scanner's record and its request, the pending answers, and lots and tokens may change. -/
theorem InTurn.setNode {s w : State} {a : Nat} {r : ScannerRecord} (h : InTurn s w a r) (ge : 1 ≤ a) (le : a ≤ 31)
    (q : List (Nat × ScanReply)) (p : Pool) (d : Hold) (r' : ScannerRecord) (o : Outstanding) :
    InTurn s (State.setNode { w with coord := { w.coord with answers := q }, pool := p, hold := d } a
      { w.node a with scanner := some r', outstanding := o }) a r' := by
  refine ⟨?_, ?_, fun b ne => ?_, ?_⟩
  · simp only [State.setNode]
    rw [h.coord]
  · rw [State.node_setNode_same _ _ _ ge le, h.node]
  · rw [State.node_setNode_other _ _ _ _ ne.symm]
    exact h.others b ne
  · simp only [State.setNode]
    rw [h.rest]

theorem InTurn.scanner {s w : State} {a : Nat} {r : ScannerRecord} (h : InTurn s w a r) :
    (w.node a).scanner = some r := by rw [h.node]

theorem InTurn.line {s w : State} {a : Nat} {r : ScannerRecord} (h : InTurn s w a r) :
    w.coord.line = s.coord.line := by rw [h.coord]

/-- The hold controller's changes of lots and tokens, with the scanner's record. -/
theorem InTurn.modScanner {s w : State} {a : Nat} {r : ScannerRecord} (h : InTurn s w a r) (ge : 1 ≤ a) (le : a ≤ 31)
    (p : Pool) (d : Hold) (f : ScannerRecord → ScannerRecord) :
    InTurn s (State.modScanner { w with pool := p, hold := d } a f) a (f r) := by
  have changed := h.setNode ge le w.coord.answers p d (f r) (w.node a).outstanding
  have record : (w.node a).scanner.map f = some (f r) := by rw [h.scanner, Option.map_some]
  rwa [← record] at changed

theorem InTurn.wake {s w : State} {a : Nat} {r : ScannerRecord} (h : InTurn s w a r) (source : WakeSource) :
    InTurn s (w.wake source) a r := by
  refine ⟨?_, ?_, fun b ne => ?_, ?_⟩
  · rw [State.wake_frame]
    simp only
    rw [h.coord]
  · rw [State.wake_node]
    exact h.node
  · rw [State.wake_node]
    exact h.others b ne
  · rw [State.wake_frame]
    simp only
    rw [h.rest]

/-- The answer for the scanner whose turn it is waits until the turn ends (R17). -/
theorem InTurn.answered {s w : State} {a : Nat} {r : ScannerRecord} (h : InTurn s w a r) (ge : 1 ≤ a) (le : a ≤ 31)
    (line : s.coord.line = .poll a) (reply : ScanReply) (awaited : (w.node a).outstanding = .awaited) :
    InTurn s (w.answerScanner a reply) a r ∧ (a, reply) ∈ (w.answerScanner a reply).coord.answers := by
  have changed := h.setNode ge le (w.coord.answers ++ [(a, reply)]) w.pool w.hold r .ready
  rw [← h.scanner] at changed
  rw [State.answerScanner_of_awaited reply awaited (h.line.trans line)]
  exact ⟨changed, by simp⟩

/-- The exchange of a scanner whose answer waits ends, and with address 31 the sweep (R4). -/
theorem InTurn.endExchange {s w : State} {a : Nat} {r : ScannerRecord} {reply : ScanReply} (h : InTurn s w a r)
    (waits : (a, reply) ∈ w.coord.answers) :
    TurnEnded s w (w.endExchange a) a r reply ∧ (a < 31 → (w.endExchange a).time = w.time) := by
  have live : (w.node a).liveness = .present := by rw [h.node]
  have swept := SweepFrame.endExchange w a
  obtain ⟨-, -, -, scanner, -⟩ := swept.nodes a
  have answered := State.endExchange_answered waits live
  refine ⟨⟨swept.pool, swept.hold, ?_, ?_, scanner.trans h.scanner, answered, ?_, ?_⟩, ?_⟩
  · rw [swept.store, h.rest]
  · rw [swept.claims, h.rest]
  all_goals
    intro lt
    obtain ⟨rest, coord, -, nodes⟩ := State.endExchange_before w a lt
  · refine ⟨?_, ?_⟩
    · rw [coord, h.coord]
    · obtain ⟨entry, liveness, miss, box, -⟩ := nodes a
      rw [h.node] at entry liveness miss box
      refine ⟨entry, box, liveness, miss, fun b ne => ?_⟩
      have kept := nodes b
      rwa [h.others b ne] at kept
  · rw [rest, h.rest]
  · rw [rest]

/-! ## HOLD and RELEASE, from the telegram to the end of the exchange -/

/-- A request that the role of the polled scanner accepts reaches the hold controller, and its exchange ends. -/
theorem State.fieldArrival_of_polled {s : State} {a : Nat} {r : ScannerRecord} (h : ScannerPolled s a r)
    {x : FieldAnswer} {f : State → State} (fits : Role.scanner.fits x = true)
    (taken : ∀ (v : State) (e : NodeEntry), v.intake a e x = v.scannerRequest a f) :
    s.fieldArrival a x = (f (s.heard a)).endExchange a := by
  obtain ⟨-, ge, le, line, outstanding, -, e, entry, role⟩ := h
  have clear : ((s.present a).node a).outstanding = .clear := by simp [State.present, ge, le, outstanding]
  rw [State.fieldArrival, if_pos line, State.classify, entry]
  simp only [role, fits, if_true, taken, State.scannerRequest, clear]
  rfl

theorem exec_hold_of_polled {s : State} {src : Byte} {r : ScannerRecord} (id : ConsId)
    (h : ScannerPolled s src.toNat r) :
    exec (.hold src id) s = .next (((s.heard src.toNat).takeHold src.toNat id).endExchange src.toNat) := by
  have taken := State.fieldArrival_of_polled h (x := .hold id) (f := fun v => v.takeHold src.toNat id) rfl fun _ _ => rfl
  obtain ⟨on, -⟩ := h
  exact (whenOn_on s (fun s => s.fieldArrival src.toNat (.hold id)) on).trans (congrArg _ taken)

theorem exec_release_of_polled {s : State} {src : Byte} {r : ScannerRecord} (id : ConsId)
    (h : ScannerPolled s src.toNat r) :
    exec (.release src id) s = .next (((s.heard src.toNat).takeRelease src.toNat id).endExchange src.toNat) := by
  have taken :=
    State.fieldArrival_of_polled h (x := .release id) (f := fun v => v.takeRelease src.toNat id) rfl fun _ _ => rfl
  obtain ⟨on, -⟩ := h
  exact (whenOn_on s (fun s => s.fieldArrival src.toNat (.release id)) on).trans (congrArg _ taken)

/-- The turn of a HOLD that the hold controller decides with `answer`, leaving `w`. -/
theorem gives_hold {s w : State} {src : Byte} {id : ConsId} {r rec : ScannerRecord} {answer : ScanAnswer}
    (polled : ScannerPolled s src.toNat r) (turn : InTurn s w src.toNat rec) (time : w.time = s.time)
    (awaited : (w.node src.toNat).outstanding = .awaited)
    (decided : (s.heard src.toNat).decideHold src.toNat id = (answer, w)) :
    Gives (.hold src id) s fun t =>
      TurnEnded s w t src.toNat rec ⟨id, answer⟩ ∧ (src.toNat < 31 → ScanWoken s t) := by
  refine ⟨_, exec_hold_of_polled id polled, ?_⟩
  obtain ⟨-, ge, le, line, -⟩ := polled
  obtain ⟨answered, waits⟩ := turn.answered ge le line ⟨id, answer⟩ awaited
  rw [State.takeHold, decided]
  obtain ⟨ended, sameTime⟩ := (answered.wake .scan).endExchange (by rwa [State.wake_coord_answers])
  refine ⟨{ ended with
    pool := ended.pool.trans (by simp), hold := ended.hold.trans (by simp) }, fun lt => ?_⟩
  have trunk : w.trunk = s.trunk := by rw [turn.rest]
  exact ScanWoken.of_wake (by simpa using time) (by simpa using trunk) (sameTime lt)

/-- The turn of a RELEASE that the hold controller decides with `answer`, leaving `w`. -/
theorem gives_release {s w : State} {src : Byte} {id : ConsId} {r rec : ScannerRecord} {answer : ScanAnswer}
    (polled : ScannerPolled s src.toNat r) (turn : InTurn s w src.toNat rec) (time : w.time = s.time)
    (awaited : (w.node src.toNat).outstanding = .awaited)
    (decided : (s.heard src.toNat).decideRelease src.toNat id = (answer, w)) :
    Gives (.release src id) s fun t =>
      TurnEnded s w t src.toNat rec ⟨id, answer⟩ ∧ (src.toNat < 31 → t.time = s.time) := by
  refine ⟨_, exec_release_of_polled id polled, ?_⟩
  obtain ⟨-, ge, le, line, -⟩ := polled
  obtain ⟨answered, waits⟩ := turn.answered ge le line ⟨id, answer⟩ awaited
  rw [State.takeRelease, decided]
  obtain ⟨ended, sameTime⟩ := answered.endExchange waits
  refine ⟨{ ended with
    pool := ended.pool.trans (by simp), hold := ended.hold.trans (by simp) }, fun lt => ?_⟩
  rw [sameTime lt, State.answerScanner_time, time]

/-! ## The decisions (R99, R101) -/

theorem State.currentToken_eq {s : State} {a : Nat} {r : ScannerRecord} (h : (s.node a).scanner = some r) :
    s.currentToken a = r.token := by
  rw [State.currentToken, State.scannerRecord, h, Option.bind_some]

theorem State.tokenId_eq {s : State} {k : Nat} {u : TokenUse} (h : s.token k = some u) : s.tokenId k = u.id := by
  rw [State.tokenId, h]

theorem State.tokenLotState_eq {s : State} {k : Nat} {u : TokenUse} (h : s.token k = some u) :
    s.tokenLotState k = (s.lot u.entry).state := by
  rw [State.tokenLotState, h]

theorem State.decideHold_of_token {s : State} {a j : Nat} {u : TokenUse} (id : ConsId) (current : s.currentToken a = some j)
    (used : s.token j = some u) : s.decideHold a id = (.alreadyHolding u.id, s) := by
  rw [State.decideHold, current, ← State.tokenId_eq used]

theorem State.decideHold_of_notOnBoard {s : State} {a : Nat} {id : ConsId} (current : s.currentToken a = none)
    (h : NotOnBoard s id) : s.decideHold a id = (.unknownLot, s) := by
  rw [State.decideHold, current, State.findLot_of_notOnBoard h]

theorem State.decideHold_of_carries {s : State} {a e : Nat} {id : ConsId} (current : s.currentToken a = none)
    (h : Carries s id e) : s.decideHold a id = s.decideHoldLot a e id := by
  rw [State.decideHold, current, State.findLot_of_carries h]

theorem State.decideHoldLot_of_closing {s : State} {a e : Nat} (id : ConsId) (closing : (s.lot e).state = .closing) :
    s.decideHoldLot a e id = (.busy .closing, s) := by
  simp only [State.decideHoldLot, closing]

theorem State.decideHoldLot_of_moving {s : State} {a e : Nat} (id : ConsId) (moving : (s.lot e).state = .moving) :
    s.decideHoldLot a e id = (.busy .moving, s) := by
  simp only [State.decideHoldLot, moving]

theorem State.decideHoldLot_of_held {s : State} {a e j : Nat} {u : TokenUse} (id : ConsId)
    (held : (s.lot e).state = .held) (token : (s.lot e).token = some j) (used : s.token j = some u) :
    s.decideHoldLot a e id = (.held u.scanner, s) := by
  simp only [State.decideHoldLot, held, token, Option.bind_some, used]

theorem State.decideHoldLot_of_freeToken {s : State} {a e k : Nat} (id : ConsId) (resident : (s.lot e).state = .resident)
    (free : s.freeToken = some k) : s.decideHoldLot a e id = (s.grantedAnswer e, s.grantHold a k e id) := by
  simp only [State.decideHoldLot, resident, free]

theorem State.decideHoldLot_of_noToken {s : State} {a e : Nat} (id : ConsId) (resident : (s.lot e).state = .resident)
    (noneFree : s.freeToken = none) : s.decideHoldLot a e id = (.noToken, s) := by
  simp only [State.decideHoldLot, resident, noneFree]

theorem State.decideRelease_of_noToken {s : State} {a : Nat} (id : ConsId) (current : s.currentToken a = none) :
    s.decideRelease a id = (.notHeld, s) := by
  rw [State.decideRelease, current]

theorem State.decideRelease_of_otherId {s : State} {a k : Nat} {u : TokenUse} {id : ConsId}
    (current : s.currentToken a = some k) (used : s.token k = some u) (other : u.id ≠ id) :
    s.decideRelease a id = (.notHeld, s) := by
  simp only [State.decideRelease, current, State.tokenId_eq used, other, if_false]

theorem State.decideRelease_of_held {s : State} {a k : Nat} {u : TokenUse} (current : s.currentToken a = some k)
    (used : s.token k = some u) (held : (s.lot u.entry).state = .held) :
    s.decideRelease a u.id = (.released, s.freeHold k) := by
  simp only [State.decideRelease, current, State.tokenId_eq used, if_true, State.tokenLotState_eq used, held]

theorem State.decideRelease_of_closing {s : State} {a k : Nat} {u : TokenUse} (current : s.currentToken a = some k)
    (used : s.token k = some u) (closing : (s.lot u.entry).state = .closing) :
    s.decideRelease a u.id = (.busy .closing, s) := by
  simp only [State.decideRelease, current, State.tokenId_eq used, if_true, State.tokenLotState_eq used, closing]

/-! ## What a grant and a release write (R99, R101) -/

theorem State.outstanding_modScanner (s : State) (a b : Nat) (f : ScannerRecord → ScannerRecord) :
    ((s.modScanner a f).node b).outstanding = (s.node b).outstanding := by
  rw [State.node_modScanner]
  split
  case isTrue same => rw [← same.1]
  case isFalse => rfl

theorem State.token_grantHold (s : State) {a k e : Nat} {id : ConsId} (lt : k < 4) (j : Nat) :
    (s.grantHold a k e id).token j = if k = j then
      some ⟨e, id, a, s.time.now, some (min 4294967295 (s.time.now + s.trunk.settings.holdLimit)), none⟩ else s.token j := by
  refine (State.token_setToken s k j _).trans ?_
  simp only [lt, and_true]
  rfl

theorem State.lot_grantHold (s : State) {a k e : Nat} {id : ConsId} (lt : e < 64) (x : Nat) :
    (s.grantHold a k e id).lot x = if e = x then { s.lot e with state := .held, token := some k } else s.lot x := by
  refine (State.lot_setLot s e x _).trans ?_
  simp only [lt, and_true, State.setToken_lot]

theorem State.freeHold_of_token {s : State} {k : Nat} {u : TokenUse} (used : s.token k = some u) :
    s.freeHold k = ((s.setToken k none).setLot u.entry { s.lot u.entry with state := .resident, token := none }).modScanner
      u.scanner (fun r => { r with token := none }) := by
  rw [State.freeHold, used]
  rfl

theorem State.token_freeHold {s : State} {k : Nat} {u : TokenUse} (used : s.token k = some u) (lt : k < 4) (j : Nat) :
    (s.freeHold k).token j = if k = j then none else s.token j := by
  rw [State.freeHold_of_token used]
  simp [State.token_setToken, lt]

theorem State.lot_freeHold {s : State} {k : Nat} {u : TokenUse} (used : s.token k = some u) (lt : u.entry < 64) (x : Nat) :
    (s.freeHold k).lot x = if u.entry = x then { s.lot u.entry with state := .resident, token := none } else s.lot x := by
  rw [State.freeHold_of_token used]
  simp [State.lot_setLot, lt]

theorem InTurn.grantHold {s w : State} {a : Nat} {r : ScannerRecord} (h : InTurn s w a r) (ge : 1 ≤ a) (le : a ≤ 31)
    (k e : Nat) (id : ConsId) : InTurn s (w.grantHold a k e id) a { r with token := some k } :=
  h.modScanner ge le (w.grantHold a k e id).pool (w.grantHold a k e id).hold (fun r => { r with token := some k })

theorem InTurn.freeHold {s w : State} {a k : Nat} {u : TokenUse} {r : ScannerRecord} (h : InTurn s w a r) (ge : 1 ≤ a)
    (le : a ≤ 31) (used : w.token k = some u) (own : u.scanner = a) :
    InTurn s (w.freeHold k) a { r with token := none } := by
  rw [State.freeHold_of_token used, own]
  exact h.modScanner ge le _ _ (fun r => { r with token := none })

/-! ## The turns of HOLD -/

section
variable {s : State} {src : Byte} {id : ConsId} {r : ScannerRecord}

theorem State.currentToken_heard (polled : ScannerPolled s src.toNat r) :
    (s.heard src.toNat).currentToken src.toNat = r.token :=
  State.currentToken_eq (InTurn.heard polled).scanner

theorem State.outstanding_heard (polled : ScannerPolled s src.toNat r) :
    ((s.heard src.toNat).node src.toNat).outstanding = .awaited := by
  obtain ⟨ge, le⟩ := State.range_of_polled polled
  rw [State.node_heard ge le]

/-- A HOLD that is refused changes nothing of tokens, lots and scanner records (R99). -/
theorem gives_hold_refused {answer : ScanAnswer} (polled : ScannerPolled s src.toNat r)
    (decided : (s.heard src.toNat).decideHold src.toNat id = (answer, s.heard src.toNat)) :
    Gives (.hold src id) s fun t =>
      CustodyKept s t ∧ (t.node src.toNat).scanner = some r ∧ ScannerAnswered t src.toNat ⟨id, answer⟩
      ∧ (src.toNat < 31 →
        ScannerTurn s t src.toNat ∧ t = { s with coord := t.coord, time := t.time } ∧ ScanWoken s t) := by
  obtain ⟨t, runs, ended, woken⟩ := gives_hold polled (InTurn.heard polled) rfl (State.outstanding_heard polled) decided
  refine ⟨t, runs, ⟨ended.pool, ended.hold, ended.store, ended.claims⟩, ended.scanner, ended.answered, fun lt => ?_⟩
  have rest := ended.rest lt
  rw [ended.pool, ended.hold] at rest
  exact ⟨ended.turn lt, rest, woken lt⟩

/-- A HOLD on a RESIDENT lot is granted with the lowest-numbered FREE token (R99). -/
theorem gives_hold_granted {e k : Nat} (polled : ScannerPolled s src.toNat r) (noneHeld : r.token = none)
    (carries : Carries s id e) (resident : (s.lot e).state = .resident) (lt : k < 4) (free : s.token k = none)
    (lowest : ∀ j, j < k → s.token j ≠ none) :
    Gives (.hold src id) s fun t =>
      TurnEnded s ((s.heard src.toNat).grantHold src.toNat k e id) t src.toNat { r with token := some k }
        ⟨id, (s.heard src.toNat).grantedAnswer e⟩ ∧ (src.toNat < 31 → ScanWoken s t) := by
  have decided : (s.heard src.toNat).decideHold src.toNat id
      = ((s.heard src.toNat).grantedAnswer e, (s.heard src.toNat).grantHold src.toNat k e id) := by
    rw [State.decideHold_of_carries ((State.currentToken_heard polled).trans noneHeld) carries]
    exact State.decideHoldLot_of_freeToken id resident (State.freeToken_eq_some lt free lowest)
  obtain ⟨ge, le⟩ := State.range_of_polled polled
  refine gives_hold polled ((InTurn.heard polled).grantHold ge le k e id) rfl ?_ decided
  exact (State.outstanding_modScanner _ _ _ _).trans (State.outstanding_heard polled)

/-! ## The turns of RELEASE -/

/-- A RELEASE that is refused changes nothing (R101). -/
theorem gives_release_refused {answer : ScanAnswer} (polled : ScannerPolled s src.toNat r)
    (decided : (s.heard src.toNat).decideRelease src.toNat id = (answer, s.heard src.toNat)) :
    Gives (.release src id) s fun t =>
      CustodyKept s t ∧ (t.node src.toNat).scanner = some r ∧ ScannerAnswered t src.toNat ⟨id, answer⟩
      ∧ (src.toNat < 31 → ScannerTurn s t src.toNat ∧ t = { s with coord := t.coord }) := by
  obtain ⟨t, runs, ended, time⟩ :=
    gives_release polled (InTurn.heard polled) rfl (State.outstanding_heard polled) decided
  refine ⟨t, runs, ⟨ended.pool, ended.hold, ended.store, ended.claims⟩, ended.scanner, ended.answered, fun lt => ?_⟩
  have rest := ended.rest lt
  rw [ended.pool, ended.hold, time lt] at rest
  exact ⟨ended.turn lt, rest⟩

/-- A RELEASE of the HELD lot that the scanner's token names ends the hold (R101). -/
theorem gives_release_held {k : Nat} {u : TokenUse} (polled : ScannerPolled s src.toNat r) (current : r.token = some k)
    (used : s.token k = some u) (held : (s.lot u.entry).state = .held) (own : u.scanner = src.toNat) :
    Gives (.release src u.id) s fun t =>
      TurnEnded s ((s.heard src.toNat).freeHold k) t src.toNat { r with token := none } ⟨u.id, .released⟩
      ∧ (src.toNat < 31 → t.time = s.time) := by
  have decided := State.decideRelease_of_held ((State.currentToken_heard polled).trans current) used held
  obtain ⟨ge, le⟩ := State.range_of_polled polled
  have freed := State.freeHold_of_token (s := s.heard src.toNat) used
  refine gives_release polled ((InTurn.heard polled).freeHold ge le used own) ?_ ?_ decided
  · rw [freed]
    rfl
  · rw [freed]
    exact (State.outstanding_modScanner _ _ _ _).trans (State.outstanding_heard polled)

end

/-! ## The statements -/

/-- Settles O22: the grant writes what `State.grantHold` writes, and each refusal is a decision that leaves the part as the
request found it. -/
theorem holdDecided : Obligations.HoldDecided := by
  refine ⟨fun s src id r e k polled noneHeld carries resident lt free lowest => ?_, fun s src id r polled => ?_⟩
  · obtain ⟨t, runs, ended, woken⟩ := gives_hold_granted polled noneHeld carries resident lt free lowest
    obtain ⟨lt64, -⟩ := carries
    have tokens (j : Nat) := (ended.token j).trans (State.token_grantHold (s.heard src.toNat) lt j)
    have lots (x : Nat) := (ended.lot x).trans (State.lot_grantHold (s.heard src.toNat) lt64 x)
    refine ⟨t, runs, (tokens k).trans (if_pos rfl), fun j ne => (tokens j).trans (if_neg ne.symm),
      (lots e).trans (if_pos rfl), fun x ne => (lots x).trans (if_neg ne.symm), ended.scanner, ?_, ?_,
      ended.store, ended.claims, ended.answered,
      fun lt31 => ⟨ended.turn lt31, ended.rest lt31, fun on => ?_, (woken lt31).2⟩⟩
    · rw [ended.hold]
      rfl
    · rw [ended.pool]
      rfl
    · rw [(woken lt31).1 on]
      exact ⟨rfl, rfl⟩
  · intro refused
    have refusal {answer : ScanAnswer}
        (decided : (s.heard src.toNat).decideHold src.toNat id = (answer, s.heard src.toNat)) : refused answer :=
      gives_hold_refused polled decided
    have current := State.currentToken_heard polled
    refine ⟨fun j u held used => refusal (State.decideHold_of_token id (current.trans held) used),
      fun noneHeld away => refusal (State.decideHold_of_notOnBoard (current.trans noneHeld) away),
      fun e noneHeld carries => ?_⟩
    have onLot := State.decideHold_of_carries (current.trans noneHeld) carries
    exact ⟨fun closing => refusal (onLot.trans (State.decideHoldLot_of_closing id closing)),
      fun moving => refusal (onLot.trans (State.decideHoldLot_of_moving id moving)),
      fun j u held token used => refusal (onLot.trans (State.decideHoldLot_of_held id held token used)),
      fun resident used => refusal (onLot.trans
        (State.decideHoldLot_of_noToken id resident (State.freeToken_eq_none used)))⟩

/-- Settles O23: the release writes what `State.freeHold` writes, and each refusal is a decision that leaves the part as the
request found it. -/
theorem releaseDecided : Obligations.ReleaseDecided := by
  intro s src id r polled unchanged
  have refusal {answer : ScanAnswer}
      (decided : (s.heard src.toNat).decideRelease src.toNat id = (answer, s.heard src.toNat)) : unchanged answer :=
    gives_release_refused polled decided
  have current := State.currentToken_heard polled
  refine ⟨fun k u ownToken lt used same lt64 => ⟨fun held own => ?_, fun closing => ?_⟩,
    fun noneHeld => refusal (State.decideRelease_of_noToken id (current.trans noneHeld)),
    fun k u ownToken used other => refusal (State.decideRelease_of_otherId (current.trans ownToken) used other)⟩
  · subst same
    obtain ⟨t, runs, ended, time⟩ := gives_release_held polled ownToken used held own
    have tokens (j : Nat) := (ended.token j).trans (State.token_freeHold (s := s.heard src.toNat) used lt j)
    have lots (x : Nat) := (ended.lot x).trans (State.lot_freeHold (s := s.heard src.toNat) used lt64 x)
    have freed := State.freeHold_of_token (s := s.heard src.toNat) used
    refine ⟨t, runs, (tokens k).trans (if_pos rfl), fun j ne => (tokens j).trans (if_neg ne.symm),
      (lots u.entry).trans (if_pos rfl), fun x ne => (lots x).trans (if_neg ne.symm), ended.scanner, ?_, ?_,
      ended.store, ended.claims, ended.answered, fun lt31 => ⟨ended.turn lt31, ?_⟩⟩
    · rw [ended.hold, freed]
      rfl
    · rw [ended.pool, freed]
      rfl
    · have rest := ended.rest lt31
      rwa [time lt31] at rest
  · subst same
    exact refusal (State.decideRelease_of_closing (current.trans ownToken) used closing)

end Sys2Proof.Machine
